-- ==== Sys2Proof/Word.lean ====
section
/-! DEFINITION. Words of the 3240's images and records: bytes, 16-bit and 32-bit fields (R191), and banks of like records. -/

namespace Sys2Proof

/-- One byte of an image (Tables 56 and 57). -/
abbrev Byte := BitVec 8

/-- A two-byte field: revision, tolerance, count, duration (R191). -/
abbrev Half := BitVec 16

/-- A four-byte field: a value, a bound or a live value (two's complement), or a digest (unsigned) (R191). -/
abbrev Word := BitVec 32

/-- A fixed number of like records, numbered from 0 here where the manual numbers from 1. -/
abbrev Bank (n : Nat) (α : Type) := Vector α n

end Sys2Proof
end

