-- ==== Sys2Proof/Config.lean ====
section
/-! DEFINITION. What the manual fixes for every 3240: capacities and times. It leaves no value open that an
implementation fixes: what the outside decides (a write's outcome, a terminal's level) is an operand of a command. -/

namespace Sys2Proof.Config

/-- Entry slots of the non-volatile array and of its working form (R2, R72). -/
def slotCount : Nat := 2048

/-- Open proposals the list holds at most (R51). -/
def proposalCapacity : Nat := 16

/-- Records a divergence list holds at most (R98). -/
def listCapacity : Nat := 8

/-- Milliseconds in a second: timers are held in milliseconds. -/
def second : Nat := 1000

/-- Link-loss time, 200 ms (R180). -/
def linkLossTime : Nat := 200

/-- Lockout, 60 s (R163), in milliseconds. -/
def lockoutTime : Nat := 60000

/-- Wrong codes that start a lockout (R162). -/
def wrongCodeLimit : Nat := 5

/-- Time an output is commanded ON before OUTPUT_FAULT may be set, 50 ms (R150). -/
def outputFaultDelay : Nat := 50

/-- Accuracy of a timer, ±10 ms (R56, R104, R133, R148, R163, R166, R180). -/
def timerAccuracy : Nat := 10

/-- Largest role code, 999999 (R158). -/
def largestCode : Nat := 999999

end Sys2Proof.Config
end

