-- ==== Sys2Proof/Syntax.lean ====
section
/-! DEFINITION. The commands of the 3240: one constructor for each row of spec/opcode_table.json. -/

namespace Sys2Proof

/-- A request channel, 1-4 in the manual (R171), held as 0-3. -/
abbrev ChannelNo := Fin 4
/-- A station PLC, 1-32 in the manual (R1), held as 0-31. -/
abbrev StationNo := Fin 32
/-- A line section and its output, 1-4 in the manual (R122, R145), held as 0-3. -/
abbrev SectionNo := Fin 4
/-- A format number as the manual writes it: 0 is the base, 1-15 are product formats (R1). -/
abbrev FormatNo := Fin 16
/-- A parameter number as the manual writes it, 0-1023 (R1). -/
abbrev ParamNo := Fin 1024

/-- The ten argument bytes of a request area (Table 56). -/
abbrev Args := Vector Byte 10

/-- The 48 bytes of the output image (Table 56). -/
abbrev OutputImage := Vector Byte 48

/-- What a write that failed, or that a module reset cut short, leaves in the part it was writing: the
old content, the new content, or a content whose check disagrees (R87). -/
inductive Left where
  | old
  | new
  | torn
deriving DecidableEq, Repr

/-- How the write of a record slot ends (R78): its read-back agrees, or it does not and leaves something. -/
inductive RecordOutcome where
  | verified
  | failed (left : Left)
deriving DecidableEq, Repr

/-- How the write of an entry slot ends (R80): its read-back agrees, or it does not and leaves something in
the header and in the body, each read only where the write concerns that part. -/
inductive SlotOutcome where
  | verified
  | failed (header body : Left)
deriving DecidableEq, Repr

/-- A place the start-up scan itself writes (R91): an entry slot that it frees, or a record slot that it
replaces by its delivery content. -/
inductive ScanTarget where
  | slot (n : Nat)
  | station (n : StationNo)
  | sect (n : SectionNo)
  | moduleRec
deriving DecidableEq, Repr

/-- What the scan's own writes leave, for the writes named; a write not named is done and verified (R91). -/
abbrev ScanWrites := List (ScanTarget × Left)

/-- What a module reset, a held reset line or a loss of the logic supply leaves of a write it cuts short
(R87): of a record slot, of the header and the body of an entry slot, and of an interrupted scan's own
writes (`written` names those that had left something; the others had not begun). -/
structure Interruption where
  record : Left
  header : Left
  body : Left
  written : ScanWrites
deriving DecidableEq, Repr

/-- The level that has stood for 10 ms at an output terminal (R150, R193): at 15 V or more, at 5 V or less,
or between the two. -/
inductive TerminalLevel where
  | on
  | off
  | between
deriving DecidableEq, Repr

/-- The commands, in the order of spec/opcode_table.json. A request names the channel whose area of the
output image shows it with REQ set and RESET clear, and that area's ten argument bytes. -/
inductive Instr where
  | moduleInfo (ch : ChannelNo) (a : Args)
  | readEvents (ch : ChannelNo) (a : Args)
  | setEventMask (ch : ChannelNo) (a : Args)
  | signOn (ch : ChannelNo) (a : Args)
  | signOff (ch : ChannelNo) (a : Args)
  | setRoleCode (ch : ChannelNo) (a : Args)
  | openRelease (ch : ChannelNo) (a : Args)
  | closeRelease (ch : ChannelNo) (a : Args)
  | setLifetime (ch : ChannelNo) (a : Args)
  | lookup (ch : ChannelNo) (a : Args)
  | lookupExact (ch : ChannelNo) (a : Args)
  | readLimits (ch : ChannelNo) (a : Args)
  | checkValue (ch : ChannelNo) (a : Args)
  | listEntries (ch : ChannelNo) (a : Args)
  | nextEntry (ch : ChannelNo) (a : Args)
  | readDigest (ch : ChannelNo) (a : Args)
  | draftBegin (ch : ChannelNo) (a : Args)
  | draftSet (ch : ChannelNo) (a : Args)
  | draftCreate (ch : ChannelNo) (a : Args)
  | draftRetire (ch : ChannelNo) (a : Args)
  | draftBounds (ch : ChannelNo) (a : Args)
  | draftTolerance (ch : ChannelNo) (a : Args)
  | draftPartner (ch : ChannelNo) (a : Args)
  | draftSubmit (ch : ChannelNo) (a : Args)
  | draftDiscard (ch : ChannelNo) (a : Args)
  | approve (ch : ChannelNo) (a : Args)
  | reject (ch : ChannelNo) (a : Args)
  | withdraw (ch : ChannelNo) (a : Args)
  | listProposals (ch : ChannelNo) (a : Args)
  | nextProposal (ch : ChannelNo) (a : Args)
  | readProposal (ch : ChannelNo) (a : Args)
  | enroll (ch : ChannelNo) (a : Args)
  | unenroll (ch : ChannelNo) (a : Args)
  | reportValue (ch : ChannelNo) (a : Args)
  | reportDigest (ch : ChannelNo) (a : Args)
  | hold (ch : ChannelNo) (a : Args)
  | releaseHold (ch : ChannelNo) (a : Args)
  | readStation (ch : ChannelNo) (a : Args)
  | readDivergence (ch : ChannelNo) (a : Args)
  | changeover (ch : ChannelNo) (a : Args)
  | abortChangeover (ch : ChannelNo) (a : Args)
  | setSection (ch : ChannelNo) (a : Args)
  | readSection (ch : ChannelNo) (a : Args)
  | setOutputMode (ch : ChannelNo) (a : Args)
  /-- A request whose code Table 59 does not list (R174). -/
  | unknownRequest (ch : ChannelNo) (code : Byte) (a : Args)
  /-- One exchange of the images, with the whole output image it brings (R180, R173-R178). -/
  | imageExchange (image : OutputImage)
  /-- An image that shows REQ and RESET clear for an ANSWERED channel (R176). -/
  | answerAcknowledge (ch : ChannelNo)
  /-- An image that shows REQ and RESET clear for a WORKING channel (R177). -/
  | requestAbandonment (ch : ChannelNo)
  /-- An image that shows RESET set for a channel whose reset is not held (R178). -/
  | channelReset (ch : ChannelNo)
  /-- The first image that shows RESET clear for a channel whose reset is held; `req` is that image's REQ
  (R178). -/
  | channelResetEnd (ch : ChannelNo) (req : Bool)
  | linkLoss
  | proposalExpiry (number : Nat)
  | windowExpiry (st : StationNo)
  | deadlineExpiry (sec : SectionNo)
  | bypassExpiry (sec : SectionNo)
  | lockoutExpiry (ch : ChannelNo)
  | releaseExpiry
  /-- A level that has stood for 10 ms at the section's terminal (R150). -/
  | readbackChange (sec : SectionNo) (level : TerminalLevel)
  | outputFaultDelayExpiry (sec : SectionNo)
  | fieldSupplyLoss
  | fieldSupplyReturn
  | outputTrip (sec : SectionNo)
  /-- One try of a tripped output; `within` says whether its current stayed within 0.6 A (R193). -/
  | tripRetry (sec : SectionNo) (within : Bool)
  | recordWriteCompletion (o : RecordOutcome)
  | slotWriteCompletion (o : SlotOutcome)
  /-- The end of the item's last slot write, with that write's outcome (R81, R82). -/
  | proposalItemCompletion (o : SlotOutcome)
  /-- A power-on; `i` is what it leaves of a write in progress, `terminals` the levels read afresh (R154). -/
  | powerOn (i : Interruption) (terminals : Bank 4 Bool)
  /-- The release of the coupler's reset line, with the same operands. -/
  | busReset (i : Interruption) (terminals : Bank 4 Bool)
  | busResetLineAsserted (i : Interruption)
  | logicSupplyLoss (i : Interruption)
  /-- The end of the scan; `w` names the scan's own writes that failed (R91). -/
  | startUpScanEnd (w : ScanWrites)
deriving DecidableEq, Repr

end Sys2Proof
end

