-- ==== Sys2Proof/WellFormed.lean ====
section
/-! DEFINITION. Which commands are well formed: the operands that their types alone do not bound. -/

namespace Sys2Proof

/-- The request codes of Table 59. -/
def knownCodes : List Nat :=
  [0x01, 0x02, 0x03, 0x04, 0x05, 0x06, 0x07, 0x08, 0x09, 0x10, 0x11, 0x12, 0x13, 0x14, 0x15, 0x16] ++
  [0x20, 0x21, 0x22, 0x23, 0x24, 0x25, 0x26, 0x27, 0x28, 0x30, 0x31, 0x32, 0x33, 0x34, 0x35] ++
  [0x40, 0x41, 0x42, 0x43, 0x44, 0x45, 0x46, 0x47, 0x50, 0x51, 0x52, 0x53, 0x54]

/-- A scan write names an entry slot of the array, 0-2047 (R72), or a record slot. -/
def ScanTarget.wf : ScanTarget → Bool
  | .slot n => decide (n < Config.slotCount)
  | .station _ => true
  | .sect _ => true
  | .moduleRec => true

/-- Every scan write named is well formed. -/
def ScanWrites.wf (w : ScanWrites) : Bool := w.all fun t => t.1.wf

/-- A command is well formed: an unknown request's code is absent from Table 59, an expiring proposal's
number is 1-255 (R52), and every scan write names a slot of the array. -/
def Instr.wf : Instr → Bool
  | .moduleInfo _ _ => true
  | .readEvents _ _ => true
  | .setEventMask _ _ => true
  | .signOn _ _ => true
  | .signOff _ _ => true
  | .setRoleCode _ _ => true
  | .openRelease _ _ => true
  | .closeRelease _ _ => true
  | .setLifetime _ _ => true
  | .lookup _ _ => true
  | .lookupExact _ _ => true
  | .readLimits _ _ => true
  | .checkValue _ _ => true
  | .listEntries _ _ => true
  | .nextEntry _ _ => true
  | .readDigest _ _ => true
  | .draftBegin _ _ => true
  | .draftSet _ _ => true
  | .draftCreate _ _ => true
  | .draftRetire _ _ => true
  | .draftBounds _ _ => true
  | .draftTolerance _ _ => true
  | .draftPartner _ _ => true
  | .draftSubmit _ _ => true
  | .draftDiscard _ _ => true
  | .approve _ _ => true
  | .reject _ _ => true
  | .withdraw _ _ => true
  | .listProposals _ _ => true
  | .nextProposal _ _ => true
  | .readProposal _ _ => true
  | .enroll _ _ => true
  | .unenroll _ _ => true
  | .reportValue _ _ => true
  | .reportDigest _ _ => true
  | .hold _ _ => true
  | .releaseHold _ _ => true
  | .readStation _ _ => true
  | .readDivergence _ _ => true
  | .changeover _ _ => true
  | .abortChangeover _ _ => true
  | .setSection _ _ => true
  | .readSection _ _ => true
  | .setOutputMode _ _ => true
  | .unknownRequest _ code _ => !(knownCodes.contains code.toNat)
  | .imageExchange _ => true
  | .answerAcknowledge _ => true
  | .requestAbandonment _ => true
  | .channelReset _ => true
  | .channelResetEnd _ _ => true
  | .linkLoss => true
  | .proposalExpiry n => decide (1 ≤ n) && decide (n ≤ 255)
  | .windowExpiry _ => true
  | .deadlineExpiry _ => true
  | .bypassExpiry _ => true
  | .lockoutExpiry _ => true
  | .releaseExpiry => true
  | .readbackChange _ _ => true
  | .outputFaultDelayExpiry _ => true
  | .fieldSupplyLoss => true
  | .fieldSupplyReturn => true
  | .outputTrip _ => true
  | .tripRetry _ _ => true
  | .recordWriteCompletion _ => true
  | .slotWriteCompletion _ => true
  | .proposalItemCompletion _ => true
  | .powerOn i _ => i.written.wf
  | .busReset i _ => i.written.wf
  | .busResetLineAsserted i => i.written.wf
  | .logicSupplyLoss i => i.written.wf
  | .startUpScanEnd w => w.wf

end Sys2Proof
end

