-- ==== Sys2Proof/Decode.lean ====
section
/-! DEFINITION. The command a word spells. spec/opcode_table.json gives bits to none of its rows: the 3240
has no instruction words, and its request codes and argument bytes are read by IMAGE_EXCHANGE from the
output image (Tables 56 and 59). -/

namespace Sys2Proof

/-- No row of the table gives bits, so no word spells a command. -/
def decodeTableWord (_nbits _w : Nat) : Option Instr := none

end Sys2Proof
end

