-- ==== Sys2Proof/Machine/State.lean ====
section
/-! DEFINITION. The state of the 3240 as plain data, the machine right after reset, and the reasons a step can stop. -/

namespace Sys2Proof.Machine

/-- A sparse array: (slot number, content) pairs, slot numbers strictly rising; a slot that is not listed
reads as the array's default content. -/
abbrev SlotMap (α : Type) := List (Nat × α)

/-- A timer: stopped, or running with the milliseconds that remain. -/
abbrev Timer := Option Nat

/-! ### Keys, entries and changes (chapters 1 and 3) -/

/-- Entry key (R1, Table 5). -/
structure Key where
  station : StationNo
  format : FormatNo
  param : ParamNo
deriving DecidableEq, Repr

/-- Protection class (R4). -/
inductive EntryClass where
  | tunable
  | guarded
  | fixed
deriving DecidableEq, Repr

/-- Body of an entry: what a DAMAGED entry does not have (R3, Table 6). -/
structure Body where
  value : Word
  low : Option Word
  high : Option Word
  tolerance : Half
  revision : Half
deriving DecidableEq, Repr

/-- An entry in working form. It is ACTIVE when it has a body and DAMAGED when it has none (R2, R8). -/
structure Entry where
  key : Key
  cls : EntryClass
  partner : Option ParamNo
  body : Option Body
deriving DecidableEq, Repr

/-- Bound field of a change (R38, Table 18). -/
inductive BoundField where
  | unchanged
  | remove
  | value (v : Word)
deriving DecidableEq, Repr

/-- A change, with the fields its kind holds (R38, Table 18). -/
inductive Change where
  | set (key : Key) (expected : Half) (value : Word) (low high : BoundField) (tolerance : Option Half)
  | create (key : Key) (value : Word) (low high : BoundField) (tolerance : Option Half)
      (cls : EntryClass) (partner : Option ParamNo)
  | retire (key : Key) (expected : Half)
deriving DecidableEq, Repr

/-- Kind of a change (Table 64). -/
inductive ChangeKind where
  | set
  | create
  | retire
deriving DecidableEq, Repr

/-- Access role bound to a channel (R157). -/
inductive Role where
  | noRole
  | operator
  | engineer
  | quality
deriving DecidableEq, Repr

/-- Required approver of a proposal (R54). -/
inductive Approver where
  | engineerOrQuality
  | qualityOnly
deriving DecidableEq, Repr

/-- State of a proposal (R55), with the part of its record that the state holds: the time that remains of
its expiry timer (R56), or its approving channel (R69). -/
inductive ProposalState where
  | awaiting (remaining : Nat)
  | writing (approver : ChannelNo)
deriving DecidableEq, Repr

/-- Proposal record (R51, Table 20). -/
structure Proposal where
  number : Nat
  stamp : Nat
  proposer : ChannelNo
  role : Role
  changes : List Change
  required : Approver
  state : ProposalState
deriving DecidableEq, Repr

/-- Expected digest and count of one station in one format (R27). -/
structure DigestPair where
  digest : Word
  count : Nat
deriving DecidableEq, Repr

/-! ### Channels (chapters 1, 3, 8 and 9) -/

/-- A channel's cursor (R21): NONE; ENTRIES with its filters (no filter is ALL) and last key; PROPOSALS with
its last stamp. -/
inductive Cursor where
  | noCursor
  | entries (station : Option StationNo) (format : Option FormatNo) (last : Option Key)
  | proposals (last : Option Nat)
deriving DecidableEq, Repr

/-- The captured request: request code and ten argument bytes (R173). -/
structure Request where
  code : Byte
  args : Args
deriving DecidableEq, Repr

/-- Handshake state of a channel (R171); answer wanted and the captured request are present in WORKING. -/
inductive Handshake where
  | idle
  | working (wanted : Bool) (req : Request)
  | answered
deriving DecidableEq, Repr

/-- Answer area: answer code and ten result bytes (R171, Table 57). -/
structure AnswerArea where
  code : Byte
  result : Vector Byte 10
deriving DecidableEq, Repr

/-- The five event flags, or their mask (R171, R183). -/
structure EventSet where
  proposals : Bool
  stations : Bool
  sections : Bool
  release : Bool
  store : Bool
deriving DecidableEq, Repr

/-- Channel record: the fields of Table 50 (R171), and the role (R157), draft (R38), cursor (R21),
wrong-code count and lockout timer (R162) that belong to the channel. A draft is NONE, or OPEN with its
changes in draft order. -/
structure Channel where
  handshake : Handshake
  armed : Bool
  resetHeld : Bool
  answer : AnswerArea
  flags : EventSet
  mask : EventSet
  role : Role
  draft : Option (List Change)
  cursor : Cursor
  wrongCodes : Nat
  lockout : Timer
deriving DecidableEq, Repr

/-- State of the image exchange (R171). -/
inductive LinkState where
  | present
  | lost
  | recovered
deriving DecidableEq, Repr

/-! ### The non-volatile array, the write queue and the store writer (chapter 4) -/

/-- Persisted part of a station record (R73, Table 29). -/
structure StationPersist where
  enrolled : Bool
  sect : SectionNo
  window : Nat
  format : FormatNo
deriving DecidableEq, Repr

/-- Persisted part of a section record (R73, Table 29). -/
structure SectionPersist where
  format : FormatNo
  deadline : Nat
deriving DecidableEq, Repr

/-- Module record: the role codes, absent for UNSET, and the proposal lifetime in seconds (R73, R158, R57). -/
structure ModuleRecord where
  operator : Option Nat
  engineer : Option Nat
  quality : Option Nat
  lifetime : Nat
deriving DecidableEq, Repr

/-- A record slot: its content where its check agrees, or failed (R73). -/
inductive NvRecord (α : Type) where
  | valid (content : α)
  | failed
deriving DecidableEq, Repr

/-- Header of an entry slot, as it reads (R72). -/
inductive Header where
  | free
  | failed
  | entry (key : Key) (cls : EntryClass) (partner : Option ParamNo)
deriving DecidableEq, Repr

/-- An entry slot of the array: its header, and its body's content where the body's check agrees (R72). -/
structure NvSlot where
  header : Header
  body : Option Body
deriving DecidableEq, Repr

/-- The non-volatile array (R72, R73). A slot that is not listed is as the factory leaves it. -/
structure NvArray where
  slots : SlotMap NvSlot
  stations : Bank 32 (NvRecord StationPersist)
  sections : Bank 4 (NvRecord SectionPersist)
  moduleRec : NvRecord ModuleRecord
deriving DecidableEq, Repr

/-- An item of the write queue (R74); a proposal item names its approving channel and the proposal. -/
inductive WriteItem where
  | moduleRec
  | sect (n : SectionNo)
  | station (n : StationNo)
  | proposal (ch : ChannelNo) (number : Nat)
deriving DecidableEq, Repr

/-- One slot write of a proposal item, formed when the writer takes the item (R79): the slot, the entry it
is for, and the body to write (absent for a RETIRE). -/
structure SlotPlan where
  kind : ChangeKind
  slot : Nat
  key : Key
  cls : EntryClass
  partner : Option ParamNo
  body : Option Body
deriving DecidableEq, Repr

/-- What the store writer is writing: a record item with the content it took (R78), or a proposal item with
its slot writes and the results of those done (R81; `true` is VERIFIED). -/
inductive Job where
  | moduleRec (content : ModuleRecord)
  | sect (n : SectionNo) (content : SectionPersist)
  | station (n : StationNo) (content : StationPersist)
  | proposal (ch : ChannelNo) (number : Nat) (plans : List SlotPlan) (results : List Bool)
deriving DecidableEq, Repr

/-! ### Stations, sections and outputs (chapters 5, 6 and 7) -/

/-- Kind of a parameter record (R97). -/
inductive ParamKind where
  | deviates
  | outOfBounds
  | unknownParameter
  | damaged
deriving DecidableEq, Repr

/-- Kind of a station-level record (R97). -/
inductive LevelKind where
  | digestMismatch
  | wrongFormat
deriving DecidableEq, Repr

/-- A record of a divergence list (R97). -/
inductive DivRecord where
  | param (p : ParamNo) (kind : ParamKind) (value : Option Word)
  | level (kind : LevelKind) (format : FormatNo) (digest : Word)
deriving DecidableEq, Repr

/-- Station record (R94, Table 31): the persisted part and the volatile part. -/
structure StationRec where
  persist : StationPersist
  holder : Option ChannelNo
  timer : Timer
  stale : Bool
  digestSeen : Bool
  pending : Bool
  list : List DivRecord
  overflow : Bool
deriving DecidableEq, Repr

/-- Derived state of a station (R115). -/
inductive DerivedState where
  | unenrolled
  | held
  | stale
  | divergent
  | awaiting
  | conforming
deriving DecidableEq, Repr

/-- State of a section (R122, R123); the target format and the time that remains to the deadline are present
in CHANGING alone. -/
inductive SectionState where
  | steady
  | changing (target : FormatNo) (remaining : Nat)
  | split
deriving DecidableEq, Repr

/-- Section record (R122, Table 36). Its pending set is the set of its stations whose pending flag is set
(R129). -/
structure SectionRec where
  persist : SectionPersist
  state : SectionState
deriving DecidableEq, Repr

/-- Mode of an output (R145); the bypass timer is present in BYPASS alone. -/
inductive OutputMode where
  | auto
  | forcedOff
  | bypass (remaining : Nat)
deriving DecidableEq, Repr

/-- Output record (R145, Table 43), with the running part of the 50 ms of R150 and the trip of R193. -/
structure Output where
  mode : OutputMode
  commanded : Bool
  readback : Bool
  fault : Bool
  faultDelay : Timer
  tripped : Bool
deriving DecidableEq, Repr

/-! ### The module -/

/-- Whether the module runs: without logic supply, held by the reset line (R194), in its start-up scan
(R88), or past it, with READY set (R92). -/
inductive Phase where
  | off
  | held
  | scanning
  | running
deriving DecidableEq, Repr

/-- Start cause (R88). -/
inductive StartCause where
  | powerOn
  | busReset
deriving DecidableEq, Repr

/-- The state of the 3240, and the queue of the commands that wait. `freed` are the slots, in rising order, that a
verified RETIRE has freed in the array and that the working form still holds, DAMAGED, because the partner's
RETIRE failed (R10). -/
structure State where
  pending : List Instr
  phase : Phase
  resetLine : Bool
  startCause : StartCause
  startFaults : Nat
  slots : SlotMap Entry
  freed : List Nat
  digests : Bank 32 (Bank 15 DigestPair)
  proposals : List Proposal
  lastNumber : Nat
  nextStamp : Nat
  channels : Bank 4 Channel
  array : NvArray
  queue : List WriteItem
  writer : Option Job
  degraded : Bool
  stations : Bank 32 StationRec
  sections : Bank 4 SectionRec
  outputs : Bank 4 Output
  fieldPresent : Bool
  release : Timer
  access : ModuleRecord
  link : LinkState
  linkTimer : Timer
  inputImage : Vector Byte 52
deriving DecidableEq, Repr

/-- A step never stops with a fault: the manual describes no event that stops the module, so this type has
no constructor. A refused request is an answer (R189), a write fault a change of the store condition (R85). -/
inductive Fault where
deriving DecidableEq, Repr

/-- Why a command has no meaning. -/
inductive Refusal where
  /-- Raised by an arm of `exec` for a command that has no meaning yet; no arm raises it. Safe: the machine
  stops where the hardware would go on. -/
  | notModelled (mnemonic : String)
deriving DecidableEq, Repr

/-! ### Contents at reset -/

/-- Delivery content of a station record (R73, Table 29). -/
def StationPersist.delivery : StationPersist := ⟨false, 0, 10, 1⟩

/-- Delivery content of a section record (R73, Table 29). -/
def SectionPersist.delivery : SectionPersist := ⟨1, 600⟩

/-- Delivery content of the module record (R73, Table 29). -/
def ModuleRecord.delivery : ModuleRecord := ⟨none, none, none, 900⟩

/-- An entry slot as it leaves the factory: a free header (R72); its body's check is taken to disagree
(DESIGN CHOICE, log entry 10). -/
def NvSlot.factory : NvSlot := ⟨.free, none⟩

/-- The array as it leaves the factory (R72, R73). -/
def NvArray.factory : NvArray where
  slots := []
  stations := Vector.replicate 32 (.valid .delivery)
  sections := Vector.replicate 4 (.valid .delivery)
  moduleRec := .valid .delivery

/-- No event flag, or no mask bit. -/
def EventSet.empty : EventSet := ⟨false, false, false, false, false⟩

/-- A zeroed answer area: answer code 0x00, which no answer uses (R191). -/
def AnswerArea.zero : AnswerArea := ⟨0, Vector.replicate 10 0⟩

/-- A channel at a module reset (R182, R170, R39, R21). -/
def Channel.fresh : Channel where
  handshake := .idle
  armed := true
  resetHeld := false
  answer := .zero
  flags := .empty
  mask := .empty
  role := .noRole
  draft := none
  cursor := .noCursor
  wrongCodes := 0
  lockout := none

/-- An unenrolled station with the given persisted part: its volatile part is empty (R94). -/
def StationRec.idle (p : StationPersist) : StationRec where
  persist := p
  holder := none
  timer := none
  stale := false
  digestSeen := false
  pending := false
  list := []
  overflow := false

/-- An output at a module reset: AUTO, commanded OFF (R154), with the readback as read afresh. -/
def Output.fresh (readback : Bool) : Output where
  mode := .auto
  commanded := false
  readback := readback
  fault := false
  faultDelay := none
  tripped := false

/-- The 3240 right after a power-on as it left the factory, its start-up scan in progress (R88, R182, R154;
log entry 6). -/
def State.reset : State where
  pending := []
  phase := .scanning
  resetLine := false
  startCause := .powerOn
  startFaults := 0
  slots := []
  freed := []
  digests := Vector.replicate 32 (Vector.replicate 15 ⟨0, 0⟩)
  proposals := []
  lastNumber := 0
  nextStamp := 0
  channels := Vector.replicate 4 .fresh
  array := .factory
  queue := []
  writer := none
  degraded := false
  stations := Vector.replicate 32 (.idle .delivery)
  sections := Vector.replicate 4 ⟨.delivery, .steady⟩
  outputs := Vector.replicate 4 (.fresh false)
  fieldPresent := false
  release := none
  access := .delivery
  link := .present
  linkTimer := some Config.linkLossTime
  inputImage := Vector.replicate 52 0

end Sys2Proof.Machine
end

