-- ==== Sys2Proof/Machine/Ops.lean ====
section
/-! DEFINITION. The named operations over State: banks of records, sparse arrays, timers, derived station states,
outputs, event flags, and the settling of outputs and flags that every event ends with. -/

namespace Sys2Proof.Machine

/-! ### Banks -/

/-- The record at `i`. -/
def sel {α : Type} {n : Nat} (b : Bank n α) (i : Fin n) : α := b[i.val]

/-- The bank with the record at `i` replaced. -/
def upd {α : Type} {n : Nat} (b : Bank n α) (i : Fin n) (x : α) : Bank n α := b.set i.val x

/-- The bank with every record replaced by the value of `f` at it. -/
def each {α β : Type} {n : Nat} (b : Bank n α) (f : Fin n → α → β) : Bank n β :=
  Vector.ofFn fun i => f i (sel b i)

/-- The numbers of a bank's records that satisfy `p`, ascending. -/
def pick {n : Nat} (p : Fin n → Bool) : List (Fin n) := (List.finRange n).filter p

/-! ### Sparse arrays -/

/-- The content listed for slot `n`. -/
def slotGet {α : Type} : SlotMap α → Nat → Option α
  | [], _ => none
  | (k, a) :: m, n => if k = n then some a else slotGet m n

/-- The array with slot `n` listed as `a`, in rising order of slots. -/
def slotPut {α : Type} : SlotMap α → Nat → α → SlotMap α
  | [], n, a => [(n, a)]
  | (k, b) :: m, n, a =>
    if n < k then (n, a) :: (k, b) :: m
    else if k = n then (n, a) :: m
    else (k, b) :: slotPut m n a

/-- The array with slot `n` not listed. -/
def slotDrop {α : Type} : SlotMap α → Nat → SlotMap α
  | [], _ => []
  | (k, b) :: m, n => if k = n then m else (k, b) :: slotDrop m n

/-- Slot numbers rise strictly from above `lo`, and lie in the array (R2, R72). -/
def slotsRise {α : Type} : Nat → SlotMap α → Bool
  | _, [] => true
  | lo, (k, _) :: m => decide (lo ≤ k) && decide (k < Config.slotCount) && slotsRise (k + 1) m

/-- Canonical form of the working form: rising slots of the array. -/
def workingWf (m : SlotMap Entry) : Bool := slotsRise 0 m

/-- Canonical form of the non-volatile array's entry slots: rising slots, none listed that reads as the
factory left it. -/
def NvArray.wf (a : NvArray) : Bool :=
  slotsRise 0 a.slots && a.slots.all fun e => decide (e.2 ≠ NvSlot.factory)

/-- What slot `n` of the array reads as. -/
def NvArray.slot (a : NvArray) (n : Nat) : NvSlot := (slotGet a.slots n).getD .factory

/-- The array with slot `n` written. -/
def NvArray.writeSlot (a : NvArray) (n : Nat) (c : NvSlot) : NvArray :=
  { a with slots := if c = NvSlot.factory then slotDrop a.slots n else slotPut a.slots n c }

/-! ### Timers -/

/-- A timer's time in whole seconds, rounded up; 0 when stopped. -/
def secondsLeft (t : Timer) : Nat :=
  match t with
  | none => 0
  | some ms => (ms + (Config.second - 1)) / Config.second

/-- As `secondsLeft`, and at least 1 while the timer runs (R117, R133, R163, R169). -/
def secondsShown (t : Timer) : Nat :=
  match t with
  | none => 0
  | some _ => max 1 (secondsLeft t)

/-- A timer after one millisecond; it stays at 0 until its expiry is taken. -/
def timerTick (t : Timer) : Timer := t.map fun ms => ms - 1

/-- The expiry of a timer is due: the timer runs, and its time has run out to the accuracy that the manual
gives it (R56, R104, R133, R148, R163, R166, R180). A timer that was started again is not due: the expiry that
was due does not occur (R104, R149, R167; log entry 5). -/
def timerDue (t : Timer) : Bool :=
  match t with
  | none => false
  | some ms => decide (ms ≤ Config.timerAccuracy)

/-! ### Channels -/

/-- Whether images are exchanged: the module has its supply and is not held by the reset line (R194). -/
def State.exchanging (s : State) : Bool := s.phase == .scanning || s.phase == .running

/-- READY: set from the end of the start-up scan to the next module reset (R172, R92). -/
def State.ready (s : State) : Bool := s.phase == .running

/-- The state with channel `ch` replaced. -/
def State.setChannel (s : State) (ch : ChannelNo) (c : Channel) : State :=
  { s with channels := upd s.channels ch c }

/-- The state with channel `ch` changed by `f`. -/
def State.onChannel (s : State) (ch : ChannelNo) (f : Channel → Channel) : State :=
  s.setChannel ch (f (sel s.channels ch))

/-- The role bound to channel `ch` (R157). -/
def State.role (s : State) (ch : ChannelNo) : Role := (sel s.channels ch).role

/-- An arrival can take place on `ch`: images are exchanged, the link is not lost, and the channel is IDLE,
armed, and not held in reset (R173, R178, R180). -/
def State.canArrive (s : State) (ch : ChannelNo) : Bool :=
  s.exchanging && s.link != .lost && (sel s.channels ch).handshake == .idle &&
    (sel s.channels ch).armed && !(sel s.channels ch).resetHeld

/-! ### Stations -/

/-- Derived state of a station (R115). -/
def derivedState (r : StationRec) : DerivedState :=
  if !r.persist.enrolled then .unenrolled
  else if r.holder.isSome then .held
  else if r.stale then .stale
  else if !r.list.isEmpty || r.overflow then .divergent
  else if !r.digestSeen then .awaiting
  else .conforming

/-- The state with station `st` replaced. -/
def State.setStation (s : State) (st : StationNo) (r : StationRec) : State :=
  { s with stations := upd s.stations st r }

/-- The stations enrolled in section `sec`, ascending (R122). -/
def State.enrolledIn (s : State) (sec : SectionNo) : List StationNo :=
  pick fun st => (sel s.stations st).persist.enrolled && (sel s.stations st).persist.sect == sec

/-- The pending set of section `sec` (R129): its enrolled stations whose pending flag is set. -/
def State.pendingSet (s : State) (sec : SectionNo) : List StationNo :=
  (s.enrolledIn sec).filter fun st => (sel s.stations st).pending

/-! ### Sections -/

/-- The state with section `sec` replaced. -/
def State.setSectionRec (s : State) (sec : SectionNo) (r : SectionRec) : State :=
  { s with sections := upd s.sections sec r }

/-- A section is CHANGING. -/
def SectionState.isChanging : SectionState → Bool
  | .changing _ _ => true
  | .steady => false
  | .split => false

/-- Section `sec` is CHANGING. -/
def State.changing (s : State) (sec : SectionNo) : Bool := (sel s.sections sec).state.isChanging

/-- Numeric value of a section's state (Table 64). -/
def SectionState.code : SectionState → Nat
  | .steady => 0
  | .changing _ _ => 1
  | .split => 2

/-! ### Outputs (R145, R146, R150) -/

/-- The AUTO condition of section `sec` (R146). -/
def State.autoCondition (s : State) (sec : SectionNo) : Bool :=
  s.ready && (sel s.sections sec).state == .steady && !(s.enrolledIn sec).isEmpty &&
    (s.enrolledIn sec).all fun st => derivedState (sel s.stations st) == .conforming

/-- The commanded state that the mode of `sec`'s output forms (R145); OFF until READY is set. -/
def State.commandFormed (s : State) (sec : SectionNo) : Bool :=
  s.ready &&
    match (sel s.outputs sec).mode with
    | .auto => s.autoCondition sec
    | .forcedOff => false
    | .bypass _ => true

/-- OUTPUT_FAULT as R150 forms it. -/
def Output.faultFormed (o : Output) : Bool := o.commanded && !o.readback && o.faultDelay.isNone

/-- The output with its OUTPUT_FAULT formed again (R150). -/
def Output.reform (o : Output) : Output := { o with fault := o.faultFormed }

/-- The output at a command `c`. A change to ON starts the 50 ms of R150; a change to OFF ends them, the
fault and the trip (R150, R193). -/
def Output.command (o : Output) (c : Bool) : Output :=
  if c = o.commanded then o
  else if c then
    Output.reform { o with commanded := true, faultDelay := some Config.outputFaultDelay, tripped := false }
  else Output.reform { o with commanded := false, faultDelay := none, tripped := false }

/-- The outputs after an event: each whose formed command the event has changed takes the new one (R145). -/
def formOutputs (before after : State) : State :=
  { after with
    outputs := each after.outputs fun sec o =>
      if before.commandFormed sec = after.commandFormed sec then o
      else o.command (after.commandFormed sec) }

/-- The switch of `sec`'s output is closed and its terminal driven (R193, R194). -/
def State.driven (s : State) (sec : SectionNo) : Bool :=
  (sel s.outputs sec).commanded && s.fieldPresent && !(sel s.outputs sec).tripped && s.phase != .off

/-! ### Event flags (R183, R184) -/

/-- The flags set in either. -/
def EventSet.join (a b : EventSet) : EventSet where
  proposals := a.proposals || b.proposals
  stations := a.stations || b.stations
  sections := a.sections || b.sections
  release := a.release || b.release
  store := a.store || b.store

/-- Some flag is set whose mask bit is set (R185). -/
def EventSet.meets (a m : EventSet) : Bool :=
  (a.proposals && m.proposals) || (a.stations && m.stations) || (a.sections && m.sections) ||
    (a.release && m.release) || (a.store && m.store)

/-- The causes of Table 51 between the states before and after one event (R183): the proposal list, the
derived states, the sections' states and formats, the outputs' commanded state, readback and OUTPUT_FAULT,
the release's state, and the store condition. -/
def causes (before after : State) : EventSet where
  proposals := decide (before.proposals.map Proposal.stamp ≠ after.proposals.map Proposal.stamp)
  stations := (List.finRange 32).any fun st =>
    decide (derivedState (sel before.stations st) ≠ derivedState (sel after.stations st))
  sections := (List.finRange 4).any fun sec =>
    decide ((sel before.sections sec).state.code ≠ (sel after.sections sec).state.code) ||
    decide ((sel before.sections sec).persist.format ≠ (sel after.sections sec).persist.format) ||
    decide ((sel before.outputs sec).commanded ≠ (sel after.outputs sec).commanded) ||
    decide ((sel before.outputs sec).readback ≠ (sel after.outputs sec).readback) ||
    decide ((sel before.outputs sec).fault ≠ (sel after.outputs sec).fault)
  release := decide (before.release.isSome ≠ after.release.isSome)
  store := !before.degraded && after.degraded

/-- A channel with the flags of `e` set, unless its reset is held (R184). -/
def Channel.flag (c : Channel) (e : EventSet) : Channel :=
  if c.resetHeld then c else { c with flags := c.flags.join e }

/-- The state with the flags of `e` set on every channel whose reset is not held (R184). -/
def State.raise (s : State) (e : EventSet) : State :=
  { s with channels := each s.channels fun _ c => c.flag e }

/-- How every event ends: the outputs are formed (R145), and the event flags of its causes are set (R183). -/
def settle (before after : State) : State :=
  (formOutputs before after).raise (causes before (formOutputs before after))

end Sys2Proof.Machine
end

