-- ==== Sys2Proof/Machine/Operands.lean ====
section
/-! DEFINITION. Argument fields of a captured request, result fields of an answer, and their numeric values (chapter 10). -/

namespace Sys2Proof.Machine

/-! ### Argument fields (R191) -/

/-- Argument byte `n`. -/
def argByte (a : Args) (n : Nat) : Byte := if h : n < 10 then a[n] else 0

/-- The two-byte field at `n`, little-endian. -/
def argHalf (a : Args) (n : Nat) : Half := argByte a (n + 1) ++ argByte a n

/-- The four-byte field at `n`, little-endian. -/
def argWord (a : Args) (n : Nat) : Word := argHalf a (n + 2) ++ argHalf a n

/-- Every argument byte from `used` on is 0 (R174). -/
def unusedZero (a : Args) (used : Nat) : Bool :=
  (List.range 10).all fun i => decide (i < used) || argByte a i == 0

/-- A number 1-32 is a station. -/
def stationOf (n : Nat) : Option StationNo :=
  if h : 1 ≤ n ∧ n ≤ 32 then some ⟨n - 1, by omega⟩ else none

/-- A number 1-4 is a section. -/
def sectionOf (n : Nat) : Option SectionNo :=
  if h : 1 ≤ n ∧ n ≤ 4 then some ⟨n - 1, by omega⟩ else none

/-- A number 0-15 is a format of a key. -/
def formatOf (n : Nat) : Option FormatNo :=
  if h : n ≤ 15 then some ⟨n, by omega⟩ else none

/-- A number 1-15 is a product format. -/
def productFormatOf (n : Nat) : Option FormatNo := if n = 0 then none else formatOf n

/-- A number 0-1023 is a parameter. -/
def paramOf (n : Nat) : Option ParamNo :=
  if h : n ≤ 1023 then some ⟨n, by omega⟩ else none

/-- The role a SIGN_ON or a SET_ROLE_CODE may name (R161, Table 64). -/
def roleOf (n : Nat) : Option Role :=
  if n = 1 then some .operator
  else if n = 2 then some .engineer
  else if n = 3 then some .quality
  else none

/-- The class of a DRAFT_CREATE (Table 64). -/
def classOf (n : Nat) : Option EntryClass :=
  if n = 0 then some .tunable
  else if n = 1 then some .guarded
  else if n = 2 then some .fixed
  else none

/-- A station filter: 1-32, or 0xFF for ALL (R191). -/
def stationFilterOf (n : Nat) : Option (Option StationNo) :=
  if n = 0xFF then some none else (stationOf n).map some

/-- A format filter: 0-15, or 0xFF for ALL (R191). -/
def formatFilterOf (n : Nat) : Option (Option FormatNo) :=
  if n = 0xFF then some none else (formatOf n).map some

/-- The key in argument bytes 0-3 (R191). -/
def keyArg (a : Args) : Option Key :=
  match stationOf (argByte a 0).toNat, formatOf (argByte a 1).toNat, paramOf (argHalf a 2).toNat with
  | some st, some f, some p => some ⟨st, f, p⟩
  | _, _, _ => none

/-- The station in argument byte 0. -/
def stationArg (a : Args) : Option StationNo := stationOf (argByte a 0).toNat

/-- The section in argument byte 0. -/
def sectionArg (a : Args) : Option SectionNo := sectionOf (argByte a 0).toNat

/-- A bound field from its selector (Table 64) and its value field (R42). -/
def boundOf (selector : Nat) (v : Word) : Option BoundField :=
  if selector = 0 then some .unchanged
  else if selector = 1 then some .remove
  else if selector = 2 then some (.value v)
  else none

/-- The mask of SET_EVENT_MASK; no bit may be set outside the five flags (R185, Table 65). -/
def EventSet.ofByte (b : Byte) : Option EventSet :=
  if b.toNat < 32 then
    some ⟨b.getLsbD 0, b.getLsbD 1, b.getLsbD 2, b.getLsbD 3, b.getLsbD 4⟩
  else none

/-! ### Result fields -/

/-- A byte of a number. -/
def byteOf (n : Nat) : Byte := BitVec.ofNat 8 n

/-- The two bytes of a field, least significant first (R191). -/
def halfBytes (h : Half) : List Byte := [h.extractLsb' 0 8, h.extractLsb' 8 8]

/-- The four bytes of a field, least significant first (R191). -/
def wordBytes (w : Word) : List Byte :=
  [w.extractLsb' 0 8, w.extractLsb' 8 8, w.extractLsb' 16 8, w.extractLsb' 24 8]

/-- The two bytes of a number. -/
def numBytes (n : Nat) : List Byte := halfBytes (BitVec.ofNat 16 n)

/-- The four bytes of a key (R191). -/
def keyBytes (k : Key) : List Byte :=
  [byteOf (k.station.val + 1), byteOf k.format.val] ++ numBytes k.param.val

/-- A byte of eight bits, bit 0 first. -/
def bitsByte (bits : List Bool) : Byte :=
  byteOf (bits.foldr (fun b n => 2 * n + b.toNat) 0)

/-- Ten result bytes: those named, and 0 after them (R175). -/
def resultBytes (l : List Byte) : Vector Byte 10 := Vector.ofFn fun i => l.getD i.val 0

/-! ### Numeric values (Tables 62 to 64) -/

/-- Answer codes (Table 62). -/
inductive AnswerCode where
  | done | listEnd | notReady | badRequest | badArgument | denied | noCursor
  | noEntry | exists | damaged | revisionMismatch | outOfBounds | boundsInvalid
  | partnerRequired | partnerInvalid | conflict | noDraft | noChange | draftFull | duplicateKey
  | listFull | tableFull
  | noProposal | notAwaiting | selfApproval | releaseClosed | storeFault | writeFault
  | notEnrolled | sectionBusy | sameFormat | heldByOther
  | wrongCode | lockedOut
deriving DecidableEq, Repr

/-- Value of an answer code (Table 62). -/
def AnswerCode.byte : AnswerCode → Byte
  | .done => 0x01 | .listEnd => 0x02 | .notReady => 0x03 | .badRequest => 0x04
  | .badArgument => 0x05 | .denied => 0x06 | .noCursor => 0x07
  | .noEntry => 0x10 | .exists => 0x11 | .damaged => 0x12 | .revisionMismatch => 0x13
  | .outOfBounds => 0x14 | .boundsInvalid => 0x15
  | .partnerRequired => 0x18 | .partnerInvalid => 0x19 | .conflict => 0x1A | .noDraft => 0x1B
  | .noChange => 0x1C | .draftFull => 0x1D | .duplicateKey => 0x1E
  | .listFull => 0x20 | .tableFull => 0x21
  | .noProposal => 0x28 | .notAwaiting => 0x29 | .selfApproval => 0x2A | .releaseClosed => 0x2B
  | .storeFault => 0x2C | .writeFault => 0x2D
  | .notEnrolled => 0x30 | .sectionBusy => 0x31 | .sameFormat => 0x32 | .heldByOther => 0x33
  | .wrongCode => 0x38 | .lockedOut => 0x39

/-- Verdicts (Table 63). -/
inductive Verdict where
  | below | above | deviates | inTolerance | noEntry | damaged | conforms | outOfBounds
  | unknownParameter | held | hit | mismatch | adopted | wrongFormat
deriving DecidableEq, Repr

/-- Value of a verdict (Table 63). `hit` is MATCH. -/
def Verdict.byte : Verdict → Byte
  | .below => 0x01 | .above => 0x02 | .deviates => 0x03 | .inTolerance => 0x04 | .noEntry => 0x05
  | .damaged => 0x06 | .conforms => 0x07 | .outOfBounds => 0x08 | .unknownParameter => 0x09
  | .held => 0x0A | .hit => 0x0B | .mismatch => 0x0C | .adopted => 0x0D | .wrongFormat => 0x0E

/-- Value of a parameter record's kind: the verdict of the same name (Table 63). -/
def ParamKind.byte : ParamKind → Byte
  | .deviates => 0x03
  | .outOfBounds => 0x08
  | .unknownParameter => 0x09
  | .damaged => 0x06

/-- Value of a station-level record's kind (Table 63). -/
def LevelKind.byte : LevelKind → Byte
  | .digestMismatch => 0x0F
  | .wrongFormat => 0x0E

/-- Value of a role (Table 64). -/
def Role.byte : Role → Byte
  | .noRole => 0
  | .operator => 1
  | .engineer => 2
  | .quality => 3

/-- Value of a class (Table 64). -/
def EntryClass.byte : EntryClass → Byte
  | .tunable => 0
  | .guarded => 1
  | .fixed => 2

/-- Value of a change kind (Table 64). -/
def ChangeKind.byte : ChangeKind → Byte
  | .set => 1
  | .create => 2
  | .retire => 3

/-- Value of an entry's condition: ACTIVE or DAMAGED (Table 64). -/
def Entry.conditionByte (e : Entry) : Byte := if e.body.isSome then 1 else 2

/-- Value of a required approver (Table 64). -/
def Approver.byte : Approver → Byte
  | .engineerOrQuality => 1
  | .qualityOnly => 2

/-- Value of a proposal's state (Table 64). -/
def ProposalState.byte : ProposalState → Byte
  | .awaiting _ => 1
  | .writing _ => 2

/-- Value of a derived station state (Table 64). -/
def DerivedState.byte : DerivedState → Byte
  | .unenrolled => 0
  | .held => 1
  | .stale => 2
  | .divergent => 3
  | .awaiting => 4
  | .conforming => 5

/-- Value of an output mode (Table 64). -/
def OutputMode.byte : OutputMode → Byte
  | .auto => 0
  | .forcedOff => 1
  | .bypass _ => 2

/-- Selector and value field of a bound field (Tables 23 and 64). -/
def BoundField.selector : BoundField → Nat
  | .unchanged => 0
  | .remove => 1
  | .value _ => 2

/-- The value of a bound field, 0 unless VALUE (Table 23). -/
def BoundField.shown : BoundField → Word
  | .unchanged => 0
  | .remove => 0
  | .value v => v

/-- A channel's number at the image, 1-4; 0 for none. -/
def holderByte (h : Option ChannelNo) : Byte := byteOf (match h with | none => 0 | some ch => ch.val + 1)

/-! ### Answers -/

/-- What an owning block hands to the channel interface: an answer, or none yet (an accepted APPROVE, R69). -/
inductive Reply where
  | now (code : AnswerCode) (result : List Byte)
  | later
deriving DecidableEq, Repr

/-- DONE with the given result bytes. -/
def Reply.done (result : List Byte) : Reply := .now .done result

/-- A refusal with an all-zero result (R192). -/
def Reply.refuse (code : AnswerCode) : Reply := .now code []

/-- The answer area of an answer code and its result bytes (R175). -/
def AnswerArea.of (code : AnswerCode) (result : List Byte) : AnswerArea := ⟨code.byte, resultBytes result⟩

end Sys2Proof.Machine
end

