-- ==== Sys2Proof/Machine/Entries.lean ====
section
/-! DEFINITION. The parameter table's working form: exact keys, resolution, proposal marks and counts (chapter 1). -/

namespace Sys2Proof.Machine

/-- Place of a key in key order: station, then format, then parameter (spec/00, Keys). -/
def Key.rank (k : Key) : Nat := (k.station.val * 16 + k.format.val) * 1024 + k.param.val

/-- The base key of the same station and parameter (R11). -/
def Key.base (k : Key) : Key := { k with format := 0 }

/-- The slot and the entry with exactly the key `k`. -/
def findEntry : SlotMap Entry → Key → Option (Nat × Entry)
  | [], _ => none
  | e :: m, k => if e.2.key = k then some e else findEntry m k

/-- The entry with exactly the key `k`. -/
def entryAt (m : SlotMap Entry) (k : Key) : Option Entry := (findEntry m k).map Prod.snd

/-- The entry that applies for a key (R11): the override if present, otherwise the base; for format 0 the
base alone. -/
def resolve (m : SlotMap Entry) (k : Key) : Option Entry :=
  match entryAt m k with
  | some e => some e
  | none => if k.format = 0 then none else entryAt m k.base

/-- What a parameter resolves to, as re-judgement asks it (R83). -/
inductive Resolution where
  | none
  | damaged
  | active
deriving DecidableEq, Repr

/-- The resolution of an entry that resolves, or of none. -/
def resolutionOf : Option Entry → Resolution
  | .none => .none
  | some e => if e.body.isSome then .active else .damaged

/-- Entries in use: the ACTIVE and DAMAGED slots (R2). -/
def State.entriesInUse (s : State) : Nat := s.slots.length

/-- DAMAGED entries (R2). -/
def State.damagedEntries (s : State) : Nat := (s.slots.filter fun e => e.2.body.isNone).length

/-- Free slots (R2). -/
def State.freeSlots (s : State) : Nat := Config.slotCount - s.entriesInUse

/-- The key of a change (R38). -/
def Change.key : Change → Key
  | .set k _ _ _ _ _ => k
  | .create k _ _ _ _ _ _ => k
  | .retire k _ => k

/-- The kind of a change. -/
def Change.kind : Change → ChangeKind
  | .set _ _ _ _ _ _ => .set
  | .create _ _ _ _ _ _ _ => .create
  | .retire _ _ => .retire

/-- The CREATE changes among some changes. -/
def createCount (l : List Change) : Nat := (l.filter fun c => c.kind == .create).length

/-- A proposal is WRITING. -/
def Proposal.isWriting (p : Proposal) : Bool :=
  match p.state with
  | .awaiting _ => false
  | .writing _ => true

/-- A proposal holds a change with the key `k`. -/
def Proposal.holds (p : Proposal) (k : Key) : Bool := p.changes.any fun c => c.key == k

/-- The key carries PROPOSED (R13). -/
def State.proposedMark (s : State) (k : Key) : Bool :=
  s.proposals.any fun p => !p.isWriting && p.holds k

/-- The key carries WRITING (R13). -/
def State.writingMark (s : State) (k : Key) : Bool :=
  s.proposals.any fun p => p.isWriting && p.holds k

/-- The revision an entry is stated with: 0 for a DAMAGED entry (R6). -/
def Entry.statedRevision (e : Entry) : Half := (e.body.map Body.revision).getD 0

/-- The revision that follows `r`: 65535 is followed by 1 (R6). -/
def nextRevision (r : Half) : Half := if r = 0xFFFF then 1 else r + 1

/-- The larger of two revisions (R6). -/
def maxRevision (a b : Half) : Half := if a.toNat < b.toNat then b else a

/-- A value is not below a present low bound. -/
def aboveLow (low : Option Word) (v : Word) : Bool :=
  match low with
  | none => true
  | some l => decide (l.toInt ≤ v.toInt)

/-- A value is not above a present high bound. -/
def belowHigh (high : Option Word) (v : Word) : Bool :=
  match high with
  | none => true
  | some h => decide (v.toInt ≤ h.toInt)

/-- The low bound does not exceed the high bound where both are present (R5). -/
def boundsOrdered (low high : Option Word) : Bool :=
  match low, high with
  | some l, some h => decide (l.toInt ≤ h.toInt)
  | _, _ => true

/-- The fields of a body that its check agrees with read as valid (R72, R5, R6). -/
def Body.ok (b : Body) : Bool :=
  boundsOrdered b.low b.high && aboveLow b.low b.value && belowHigh b.high b.value && b.revision != 0

/-- The exact difference of two values, without sign, exceeds the tolerance (R19, R102). -/
def deviates (v w : Word) (tolerance : Half) : Bool := decide (tolerance.toNat < (v.toInt - w.toInt).natAbs)

end Sys2Proof.Machine
end

