-- ==== Sys2Proof/Machine/Flags.lean ====
section
/-! DEFINITION. The flag bytes, the status bytes, the module area and the input image, and the LEDs (chapters 7, 9 and 10). -/

namespace Sys2Proof.Machine

/-- Entry flags of an answer (R15, R16, Table 65): `marks` are the keys whose marks are considered,
`fromBase` whether the entry is a base standing for a product format, `e` the entry, if there is one. The
bounds of a DAMAGED entry are unknown. -/
def entryFlags (s : State) (marks : List Key) (fromBase : Bool) (e : Option Entry) : Byte :=
  let body := e.bind Entry.body
  bitsByte [fromBase,
    (body.bind Body.low).isSome,
    (body.bind Body.high).isSome,
    (e.bind Entry.partner).isSome,
    marks.any s.proposedMark,
    marks.any s.writingMark]

/-- The flags byte of LOOKUP for the key `k` (R15, R16): the marks of the requested key and of the resolved
key, and, where nothing resolves in a product format, of the base key. R16 says the last of
LOOKUP, R18 of READ_LIMITS; for CHECK_VALUE it is the model's choice (log entry 35). -/
def lookupFlags (s : State) (k : Key) : Byte :=
  match resolve s.slots k with
  | some e => entryFlags s [k, e.key] (decide (k.format ≠ 0 ∧ e.key.format = 0)) (some e)
  | none => entryFlags s [k, k.base] false none

/-- Flags byte of the five event flags or the mask (Table 65). -/
def EventSet.byte (e : EventSet) : Byte := bitsByte [e.proposals, e.stations, e.sections, e.release, e.store]

/-- Station flags (Table 65). -/
def stationFlags (r : StationRec) : Byte := bitsByte [r.stale, r.digestSeen, r.pending, r.overflow]

/-- Info flags of MODULE_INFO (R188, Table 65). -/
def infoFlags (s : State) : Byte :=
  bitsByte [s.startCause == .busReset, s.degraded, s.release.isSome, s.link == .recovered]

/-- Output byte of READ_SECTION (R140, Table 65). -/
def outputByte (o : Output) : Byte :=
  bitsByte [o.mode.byte.getLsbD 0, o.mode.byte.getLsbD 1, o.commanded, o.readback, o.fault]

/-- The status byte of a channel (R172, Table 58). -/
def statusByte (s : State) (ch : ChannelNo) : Byte :=
  let c := sel s.channels ch
  let busy := match c.handshake with | .working _ _ => true | .idle => false | .answered => false
  let done := match c.handshake with | .working _ _ => false | .idle => false | .answered => true
  bitsByte [busy, done, c.flags.meets c.mask && !c.resetHeld,
    c.role.byte.getLsbD 0, c.role.byte.getLsbD 1, s.ready]

/-- The enrolled stations whose derived state is not CONFORMING (R116, Table 52). -/
def State.notConforming (s : State) : Nat :=
  (pick fun st => (sel s.stations st).persist.enrolled &&
    derivedState (sel s.stations st) != DerivedState.conforming).length

/-- The four bytes of the module area (R187, Tables 52 and 58). Until READY is set, the fields other than
the readbacks and the OUTPUT_FAULT indications are 0. -/
def moduleArea (s : State) : List Byte :=
  let outs := (List.finRange 4).map (sel s.outputs)
  let levels := bitsByte (outs.map Output.readback ++ outs.map Output.fault)
  if s.ready then
    [levels,
      byteOf (1 + 2 * s.degraded.toNat + 4 * (s.link == .recovered).toNat + 8 * s.proposals.length),
      byteOf (((List.finRange 4).map fun sec => 4 ^ sec.val * (sel s.sections sec).state.code).sum),
      byteOf s.notConforming]
  else [levels, 0, 0, 0]

/-- The input bytes of one channel: status byte, answer code, ten result bytes (Table 57). -/
def channelArea (s : State) (ch : ChannelNo) : List Byte :=
  statusByte s ch :: (sel s.channels ch).answer.code :: (sel s.channels ch).answer.result.toList

/-- The bytes of the input image as they are formed at an exchange (R172, R187, Table 57). -/
def inputBytes (s : State) : List Byte :=
  moduleArea s ++ channelArea s 0 ++ channelArea s 1 ++ channelArea s 2 ++ channelArea s 3

/-- The 52 bytes of the input image. -/
def formImage (s : State) : Vector Byte 52 := Vector.ofFn fun i => (inputBytes s).getD i.val 0

/-- What the module LED shows (R156); a module without logic supply shows nothing (R194). -/
inductive ModuleLed where
  | dark
  | greenFlashing
  | redFlashing
  | redSteady
  | greenSteady
deriving DecidableEq, Repr

/-- The module LED (R156, R194). -/
def moduleLed (s : State) : ModuleLed :=
  match s.phase with
  | .off => .dark
  | .held => .greenFlashing
  | .scanning => .greenFlashing
  | .running =>
    if s.link = .lost then .redFlashing
    else if s.degraded then .redSteady
    else .greenSteady

/-- A section LED is lit (R155). -/
def sectionLed (s : State) (sec : SectionNo) : Bool := (sel s.outputs sec).readback

/-- The field supply LED is lit (R155, R193). -/
def fieldLed (s : State) : Bool := s.fieldPresent

end Sys2Proof.Machine
end

