-- ==== Sys2Proof/Machine/Requests.lean ====
section
/-! DEFINITION. The handshake of one request on one channel: arrival, the channel interface's checks, the owning block's
answer, and completion (chapter 9). -/

namespace Sys2Proof.Machine

/-- A request of Table 59: its code, how many argument bytes it uses, the roles it admits (Table 46), and
what its owning block does with it. -/
structure RequestSpec where
  code : Byte
  used : Nat
  admits : Role → Bool
  run : ChannelNo → Args → State → State × Reply

/-- Admitted for every role, NONE included (Table 46). -/
def anyRole : Role → Bool := fun _ => true

/-- OPERATOR and ENGINEER (Table 46). -/
def operatorOrEngineer : Role → Bool := fun r => r == .operator || r == .engineer

/-- OPERATOR, ENGINEER and QUALITY (Table 46). -/
def signedOn : Role → Bool := fun r => r != .noRole

/-- ENGINEER alone (Table 46). -/
def engineerOnly : Role → Bool := fun r => r == .engineer

/-- ENGINEER and QUALITY (Table 46). -/
def engineerOrQuality : Role → Bool := fun r => r == .engineer || r == .quality

/-- QUALITY alone (Table 46). -/
def qualityOnly : Role → Bool := fun r => r == .quality

/-- Arrival (R173): the request is captured, the answer area zeroed, and the channel WORKING with answer
wanted and no longer armed. -/
def arrive (ch : ChannelNo) (req : Request) (s : State) : State :=
  s.onChannel ch fun c => { c with handshake := .working true req, armed := false, answer := .zero }

/-- A channel at the completion of its request (R175, R177): the answer is written where it is wanted and
discarded where it is not. -/
def Channel.complete (c : Channel) (answer : AnswerArea) : Channel :=
  match c.handshake with
  | .working true _ => { c with handshake := .answered, answer := answer }
  | .working false _ => { c with handshake := .idle, answer := .zero, armed := false }
  | .idle => c
  | .answered => c

/-- Completion of the request on `ch` (R175, R177). -/
def deliver (ch : ChannelNo) (code : AnswerCode) (result : List Byte) (s : State) : State :=
  s.onChannel ch fun c => c.complete (.of code result)

/-- The owning block's answer handed to the channel interface (R175); an accepted APPROVE has none yet. -/
def reply (ch : ChannelNo) (r : Reply) (s : State) : State :=
  match r with
  | .now code result => deliver ch code result s
  | .later => s

/-- The refusal of a request by its channel's role, with the bound role (R165, Table 61). -/
def deniedFor (role : Role) : Reply := .now .denied [role.byte]

/-- The channel interface's checks, in the order of R174: NOT_READY, BAD_REQUEST, DENIED. -/
def precheck (r : RequestSpec) (ch : ChannelNo) (a : Args) (s : State) : Option Reply :=
  if !s.ready then some (.refuse .notReady)
  else if !unusedZero a r.used then some (.refuse .badRequest)
  else if !r.admits (s.role ch) then some (deniedFor (s.role ch))
  else none

/-- The owning block takes the request as one event, and answers. -/
def runRequest (r : RequestSpec) (ch : ChannelNo) (a : Args) (s : State) : State :=
  reply ch (r.run ch a s).2 (settle s (r.run ch a s).1)

/-- An arrived request is checked and handed on (R174, R175). -/
def handOn (r : RequestSpec) (ch : ChannelNo) (a : Args) (s : State) : State :=
  match precheck r ch a s with
  | some refusal => reply ch refusal s
  | none => runRequest r ch a s

/-- A request on a channel: where an arrival can take place, it arrives and is handed on; elsewhere it is
not seen (R173, R178, R180). -/
def takeRequest (r : RequestSpec) (ch : ChannelNo) (a : Args) (s : State) : State :=
  if s.canArrive ch then handOn r ch a (arrive ch ⟨r.code, a⟩ s) else s

/-- A request whose code Table 59 does not list: NOT_READY during the scan, BAD_REQUEST otherwise (R174). -/
def takeUnlisted (ch : ChannelNo) (code : Byte) (a : Args) (s : State) : State :=
  if s.canArrive ch then
    reply ch (.refuse (if s.ready then .badRequest else .notReady)) (arrive ch ⟨code, a⟩ s)
  else s

end Sys2Proof.Machine
end

