-- ==== Sys2Proof/Machine/Table.lean ====
section
/-! DEFINITION. The parameter table's requests: LOOKUP, LOOKUP_EXACT, READ_LIMITS, CHECK_VALUE, LIST_ENTRIES and NEXT_ENTRY (chapter 1). -/

namespace Sys2Proof.Machine

/-- The answer of LOOKUP and LOOKUP_EXACT for an entry, or for none, with its flags byte (R15, R16, Table 60,
R192). -/
def lookupReply (e : Option Entry) (flags : Byte) : Reply :=
  match e with
  | none => .now .noEntry (List.replicate 9 0 ++ [flags])
  | some e =>
    match e.body with
    | none => .now .damaged (List.replicate 6 0 ++ [e.cls.byte, 0, 0, flags])
    | some b =>
      .done (wordBytes b.value ++ halfBytes b.revision ++ [e.cls.byte] ++ halfBytes b.tolerance ++ [flags])

/-- LOOKUP (R15, R16). -/
def answerLookup (a : Args) (s : State) : Reply :=
  match keyArg a with
  | none => .refuse .badArgument
  | some k => lookupReply (resolve s.slots k) (lookupFlags s k)

/-- LOOKUP_EXACT (R17): no fallback, and the marks of the exact key alone. -/
def answerLookupExact (a : Args) (s : State) : Reply :=
  match keyArg a with
  | none => .refuse .badArgument
  | some k => lookupReply (entryAt s.slots k) (entryFlags s [k] false (entryAt s.slots k))

/-- The two parts of READ_LIMITS (R18, Table 60, R192). -/
def limitsReply (part : Nat) (e : Option Entry) (flags : Byte) : Reply :=
  match e with
  | none => .now .noEntry [flags]
  | some e =>
    let partner := numBytes ((e.partner.map Fin.val).getD 0)
    match e.body with
    | none => .now .damaged (if part = 0 then [flags] else [flags, 0, 0] ++ partner)
    | some b =>
      if part = 0 then .done ([flags] ++ wordBytes (b.low.getD 0) ++ wordBytes (b.high.getD 0))
      else .done ([flags] ++ halfBytes b.tolerance ++ partner ++ halfBytes b.revision)

/-- READ_LIMITS (R18). -/
def answerReadLimits (a : Args) (s : State) : Reply :=
  match keyArg a with
  | none => .refuse .badArgument
  | some k =>
    if (argByte a 4).toNat ≤ 1 then
      limitsReply (argByte a 4).toNat (resolve s.slots k) (lookupFlags s k)
    else .refuse .badArgument

/-- The verdict of CHECK_VALUE by the steps of R19. -/
def checkVerdict (e : Option Entry) (v : Word) : Verdict :=
  match e with
  | none => .noEntry
  | some e =>
    match e.body with
    | none => .damaged
    | some b =>
      if !aboveLow b.low v then .below
      else if !belowHigh b.high v then .above
      else if deviates v b.value b.tolerance then .deviates
      else .inTolerance

/-- CHECK_VALUE (R19, R20). The flags byte is LOOKUP's; that it shows the base key's marks too where nothing
resolves is R16's rule for LOOKUP taken over (DESIGN CHOICE, log entry 35). -/
def answerCheckValue (a : Args) (s : State) : Reply :=
  match keyArg a with
  | none => .refuse .badArgument
  | some k =>
    .done ([(checkVerdict (resolve s.slots k) (argWord a 4)).byte, lookupFlags s k] ++
      halfBytes (((resolve s.slots k).map Entry.statedRevision).getD 0))

/-! ### Enumeration (R21 to R24) -/

/-- A key matches the filters of an ENTRIES cursor (R21). -/
def Key.passes (k : Key) (station : Option StationNo) (format : Option FormatNo) : Bool :=
  (match station with | none => true | some st => k.station == st) &&
  (match format with | none => true | some f => k.format == f)

/-- The entries whose keys match the filters and follow the last key in key order (R22, R23). -/
def walkAhead (m : SlotMap Entry) (station : Option StationNo) (format : Option FormatNo)
    (last : Option Key) : List Entry :=
  (m.map Prod.snd).filter fun e =>
    e.key.passes station format &&
      (match last with | none => true | some l => decide (l.rank < e.key.rank))

/-- The entry with the smallest key among some entries. -/
def smallest : List Entry → Option Entry
  | [] => none
  | e :: l =>
    match smallest l with
    | none => some e
    | some e' => if e'.key.rank < e.key.rank then some e' else some e

/-- The state with the cursor of channel `ch` replaced. -/
def State.setCursor (s : State) (ch : ChannelNo) (c : Cursor) : State :=
  s.onChannel ch fun r => { r with cursor := c }

/-- LIST_ENTRIES (R22). -/
def runListEntries (ch : ChannelNo) (a : Args) (s : State) : State × Reply :=
  match stationFilterOf (argByte a 0).toNat, formatFilterOf (argByte a 1).toNat with
  | some st, some f =>
    let found := walkAhead s.slots st f none
    match smallest found with
    | none => (s.setCursor ch (.entries st f none), .now .listEnd [])
    | some e =>
      (s.setCursor ch (.entries st f (some e.key)),
        .done (keyBytes e.key ++ [e.conditionByte] ++ numBytes found.length))
  | _, _ => (s, .refuse .badArgument)

/-- NEXT_ENTRY (R23). -/
def runNextEntry (ch : ChannelNo) (s : State) : State × Reply :=
  match (sel s.channels ch).cursor with
  | .entries st f last =>
    match smallest (walkAhead s.slots st f last) with
    | none => (s, .now .listEnd [])
    | some e => (s.setCursor ch (.entries st f (some e.key)), .done (keyBytes e.key ++ [e.conditionByte]))
  | .noCursor => (s, .refuse .noCursor)
  | .proposals _ => (s, .refuse .noCursor)

/-! ### The requests (Tables 46 and 59) -/

def lookupRequest : RequestSpec := ⟨0x10, 4, anyRole, fun _ a s => (s, answerLookup a s)⟩
def lookupExactRequest : RequestSpec := ⟨0x11, 4, anyRole, fun _ a s => (s, answerLookupExact a s)⟩
def readLimitsRequest : RequestSpec := ⟨0x12, 5, anyRole, fun _ a s => (s, answerReadLimits a s)⟩
def checkValueRequest : RequestSpec := ⟨0x13, 8, anyRole, fun _ a s => (s, answerCheckValue a s)⟩
def listEntriesRequest : RequestSpec := ⟨0x14, 2, anyRole, runListEntries⟩
def nextEntryRequest : RequestSpec := ⟨0x15, 0, anyRole, fun ch _ s => runNextEntry ch s⟩

/-- LOOKUP (R15). -/
def execLookup (ch : ChannelNo) (a : Args) (s : State) : Host.Outcome State Fault Refusal :=
  .next (takeRequest lookupRequest ch a s)

/-- LOOKUP_EXACT (R17). -/
def execLookupExact (ch : ChannelNo) (a : Args) (s : State) : Host.Outcome State Fault Refusal :=
  .next (takeRequest lookupExactRequest ch a s)

/-- READ_LIMITS (R18). -/
def execReadLimits (ch : ChannelNo) (a : Args) (s : State) : Host.Outcome State Fault Refusal :=
  .next (takeRequest readLimitsRequest ch a s)

/-- CHECK_VALUE (R19). -/
def execCheckValue (ch : ChannelNo) (a : Args) (s : State) : Host.Outcome State Fault Refusal :=
  .next (takeRequest checkValueRequest ch a s)

/-- LIST_ENTRIES (R22). -/
def execListEntries (ch : ChannelNo) (a : Args) (s : State) : Host.Outcome State Fault Refusal :=
  .next (takeRequest listEntriesRequest ch a s)

/-- NEXT_ENTRY (R23). -/
def execNextEntry (ch : ChannelNo) (a : Args) (s : State) : Host.Outcome State Fault Refusal :=
  .next (takeRequest nextEntryRequest ch a s)

end Sys2Proof.Machine
end

