-- ==== Sys2Proof/Machine/Digests.lean ====
section
/-! DEFINITION. The digest table: terms, expected pairs, their correction and rebuild, and READ_DIGEST (chapter 2). -/

namespace Sys2Proof.Machine

/-- The term of a parameter with a value, modulo 2^32 (R26). -/
def digestTerm (p : ParamNo) (v : Word) : Word := 3 * v + BitVec.ofNat 32 (65537 * p.val) + 1

/-- What an entry that resolves, or none, contributes to the pair of its format (R28). -/
def entryContribution (p : ParamNo) (e : Option Entry) : DigestPair :=
  match e.bind Entry.body with
  | none => ⟨0, 0⟩
  | some b => ⟨digestTerm p b.value, 1⟩

/-- The contribution of parameter `p` in format `f` of station `st` (R28). -/
def contribution (m : SlotMap Entry) (st : StationNo) (f : FormatNo) (p : ParamNo) : DigestPair :=
  entryContribution p (resolve m ⟨st, f, p⟩)

/-- The product format whose pair stands at `i` of a station's row. -/
def productFormat (i : Fin 15) : FormatNo := ⟨i.val + 1, by omega⟩

/-- The expected pair of station `st` in format `f`; format 0 has none (R27). -/
def State.pairOf (s : State) (st : StationNo) (f : FormatNo) : DigestPair :=
  if h : f.val = 0 then ⟨0, 0⟩ else sel (sel s.digests st) ⟨f.val - 1, by omega⟩

/-- A pair with a contribution replaced by another (R28). -/
def DigestPair.correct (d old new : DigestPair) : DigestPair :=
  ⟨d.digest - old.digest + new.digest, d.count + new.count - old.count⟩

/-- The pairs of station `st` corrected for parameter `p`, in every format, by the difference between its
contributions before and after a completion (R28, R33). -/
def correctFor (before after : SlotMap Entry) (d : Bank 32 (Bank 15 DigestPair)) (t : StationNo × ParamNo) :
    Bank 32 (Bank 15 DigestPair) :=
  upd d t.1 (each (sel d t.1) fun i pair =>
    pair.correct (contribution before t.1 (productFormat i) t.2) (contribution after t.1 (productFormat i) t.2))

/-- The pairs corrected for the parameters a completion touched, each once (R33). -/
def correctDigests (before after : SlotMap Entry) (targets : List (StationNo × ParamNo))
    (d : Bank 32 (Bank 15 DigestPair)) : Bank 32 (Bank 15 DigestPair) :=
  targets.foldl (correctFor before after) d

/-- The parameters that some keys name, each once. -/
def targetsOf (keys : List Key) : List (StationNo × ParamNo) :=
  (keys.map fun k => (k.station, k.param)).dedup

/-- The pair of station `st` in format `f`, computed whole: the sum over the entries that resolve in the
format (R27, R35). -/
def computePair (m : SlotMap Entry) (st : StationNo) (f : FormatNo) : DigestPair :=
  (m.filter fun e => e.2.key.station == st && resolve m ⟨st, f, e.2.key.param⟩ == some e.2).foldl
    (fun d e =>
      let c := entryContribution e.2.key.param (some e.2)
      ⟨d.digest + c.digest, d.count + c.count⟩) ⟨0, 0⟩

/-- All 480 pairs computed whole from the parameter table (R35). -/
def rebuildDigests (m : SlotMap Entry) : Bank 32 (Bank 15 DigestPair) :=
  Vector.ofFn fun st => Vector.ofFn fun i => computePair m st (productFormat i)

/-- A change with the key `k` can alter the pair of `st` and `f` (R36). -/
def Key.alters (m : SlotMap Entry) (k : Key) (st : StationNo) (f : FormatNo) : Bool :=
  k.station == st && (k.format == f || (k.format == 0 && (entryAt m ⟨st, f, k.param⟩).isNone))

/-- Some open proposal of the given state holds a change that can alter the pair (R36). -/
def State.pairMark (s : State) (writing : Bool) (st : StationNo) (f : FormatNo) : Bool :=
  s.proposals.any fun p => p.isWriting == writing && p.changes.any fun c => c.key.alters s.slots st f

/-- READ_DIGEST (R36). -/
def answerReadDigest (a : Args) (s : State) : Reply :=
  match stationArg a, productFormatOf (argByte a 1).toNat with
  | some st, some f =>
    .done (wordBytes (s.pairOf st f).digest ++ numBytes (s.pairOf st f).count ++
      [bitsByte [false, false, false, false, s.pairMark false st f, s.pairMark true st f]])
  | _, _ => .refuse .badArgument

def readDigestRequest : RequestSpec := ⟨0x16, 2, anyRole, fun _ a s => (s, answerReadDigest a s)⟩

/-- READ_DIGEST (R36). -/
def execReadDigest (ch : ChannelNo) (a : Args) (s : State) : Host.Outcome State Fault Refusal :=
  .next (takeRequest readDigestRequest ch a s)

end Sys2Proof.Machine
end

