-- ==== Sys2Proof/Machine/Queue.lean ====
section
/-! DEFINITION. The write queue, the store writer's taking of items, and what a write leaves in the array (R72 to R81, R87). -/

namespace Sys2Proof.Machine

/-! ### Slot writes of a proposal item (R79) -/

/-- The partner of the entry a change is about: the entry's own for a SET or RETIRE, the one the change
names for a CREATE. -/
def partnerOf (m : SlotMap Entry) : Change → Option ParamNo
  | .set k _ _ _ _ _ => (entryAt m k).bind Entry.partner
  | .create _ _ _ _ _ _ partner => partner
  | .retire k _ => (entryAt m k).bind Entry.partner

/-- The change of the same kind, among some changes, that is about the partner of the change `c` (R7, R47). -/
def pairMate (m : SlotMap Entry) (all : List Change) (c : Change) : Option Change :=
  match partnerOf m c with
  | none => none
  | some q => all.find? fun d => d.key == { c.key with param := q } && d.kind == c.kind

/-- The revision an entry of key `k` has before a change, 0 when DAMAGED (R6). -/
def revisionAt (m : SlotMap Entry) (k : Key) : Half := ((entryAt m k).map Entry.statedRevision).getD 0

/-- The revision a completed SET gives (R6). -/
def setRevision (m : SlotMap Entry) (all : List Change) (c : Change) : Half :=
  match pairMate m all c with
  | none => nextRevision (revisionAt m c.key)
  | some d => nextRevision (maxRevision (revisionAt m c.key) (revisionAt m d.key))

/-- The bound a change leaves, from the one the entry has (R9, R48). -/
def BoundField.after (f : BoundField) (present : Option Word) : Option Word :=
  match f with
  | .unchanged => present
  | .remove => none
  | .value v => some v

/-- The lowest-numbered slot from `n` on, among `fuel` of them, that is not listed as taken. -/
def lowestFree (taken : List Nat) : Nat → Nat → Option Nat
  | 0, _ => none
  | fuel + 1, n => if taken.contains n then lowestFree taken fuel (n + 1) else some n

/-- The slot writes of a proposal's changes, in draft order; `taken` are the slots that are not FREE or are
chosen already (R79). None where a SET or RETIRE names no entry or no slot is FREE, which the checks of
submission rule out. -/
def planSlots (m : SlotMap Entry) (all : List Change) : List Nat → List Change → Option (List SlotPlan)
  | _, [] => some []
  | taken, c :: rest =>
    match c with
    | .set k _ v low high tol =>
      match findEntry m k with
      | none => none
      | some (n, e) =>
        (planSlots m all taken rest).map fun l =>
          ⟨.set, n, k, e.cls, e.partner,
            some ⟨v, low.after (e.body.bind Body.low), high.after (e.body.bind Body.high),
              tol.getD ((e.body.map Body.tolerance).getD 0), setRevision m all c⟩⟩ :: l
    | .create k v low high tol cls partner =>
      match lowestFree taken Config.slotCount 0 with
      | none => none
      | some n =>
        (planSlots m all (n :: taken) rest).map fun l =>
          ⟨.create, n, k, cls, partner, some ⟨v, low.after none, high.after none, tol.getD 0, 1⟩⟩ :: l
    | .retire k _ =>
      match findEntry m k with
      | none => none
      | some (n, e) => (planSlots m all taken rest).map fun l => ⟨.retire, n, k, e.cls, e.partner, none⟩ :: l

/-! ### The queue and the writer (R74 to R77) -/

/-- Place of an item in the writer's order: the module record, sections, stations, then proposals by stamp
(R77). -/
def itemRank (l : List Proposal) : WriteItem → Nat
  | .moduleRec => 0
  | .sect n => 1 + n.val
  | .station n => 5 + n.val
  | .proposal _ number => 37 + ((l.find? fun p => p.number == number).map Proposal.stamp).getD 0

/-- The first of some items in the writer's order. -/
def firstItem (l : List Proposal) : List WriteItem → Option WriteItem
  | [] => none
  | i :: q =>
    match firstItem l q with
    | none => some i
    | some j => if itemRank l j < itemRank l i then some j else some i

/-- What the writer is to write for an item, with the content at this moment (R78, R79). -/
def formJob (s : State) : WriteItem → Option Job
  | .moduleRec => some (.moduleRec s.access)
  | .sect n => some (.sect n (sel s.sections n).persist)
  | .station n => some (.station n (sel s.stations n).persist)
  | .proposal ch number =>
    match s.proposals.find? fun p => p.number == number with
    | none => none
    | some p =>
      (planSlots s.slots p.changes (s.slots.map Prod.fst) p.changes).map fun plans =>
        .proposal ch number plans []

/-- A free writer takes the first queued item, which leaves the queue (R77). -/
def takeItem (s : State) : State :=
  match s.writer with
  | some _ => s
  | none =>
    match firstItem s.proposals s.queue with
    | none => s
    | some i => { s with queue := s.queue.erase i, writer := formJob s i }

/-- An item joins the queue unless it is queued already (R75, R76); a free writer takes its next item at
once (R77, log entry 11). -/
def enqueue (i : WriteItem) (s : State) : State :=
  if s.queue.contains i then s else takeItem { s with queue := s.queue ++ [i] }

/-! ### What a write leaves in the array (R80, R87) -/

/-- What a part of a slot reads as after a write that left `l`. -/
def leaves {α : Type} (l : Left) (old new torn : α) : α :=
  match l with
  | .old => old
  | .new => new
  | .torn => torn

/-- The header of the entry a plan is for. -/
def SlotPlan.header (p : SlotPlan) : Header := .entry p.key p.cls p.partner

/-- The array after a slot write that left `h` in the header and `b` in the body, each where the write
concerns that part (R72, R80). -/
def leaveSlot (p : SlotPlan) (h b : Left) (a : NvArray) : NvArray :=
  let c := a.slot p.slot
  match p.kind with
  | .set => a.writeSlot p.slot ⟨c.header, leaves b c.body p.body none⟩
  | .create => a.writeSlot p.slot ⟨leaves h c.header p.header .failed, leaves b c.body p.body none⟩
  | .retire => a.writeSlot p.slot ⟨leaves h c.header .free .failed, c.body⟩

/-- The array after the write of a slot that ended with `o`, and whether the slot verified: a SET verifies
only where the slot's header reads as the entry's (R80). -/
def writeSlotPlan (p : SlotPlan) (o : SlotOutcome) (a : NvArray) : NvArray × Bool :=
  match o with
  | .verified => (leaveSlot p .new .new a, p.kind != .set || (a.slot p.slot).header == p.header)
  | .failed h b => (leaveSlot p h b a, false)

/-- The record slots of the array after the writer's record write left `l`. -/
def leaveRecord (j : Job) (l : Left) (a : NvArray) : NvArray :=
  match j with
  | .moduleRec c => { a with moduleRec := leaves l a.moduleRec (.valid c) .failed }
  | .sect n c => { a with sections := upd a.sections n (leaves l (sel a.sections n) (.valid c) .failed) }
  | .station n c => { a with stations := upd a.stations n (leaves l (sel a.stations n) (.valid c) .failed) }
  | .proposal _ _ _ _ => a

/-- The array after the writer's work is cut short (R87). A CREATE writes its body before its header, so a
header that is not the old one stands over the new body (R80). -/
def interruptJob (i : Interruption) (j : Option Job) (a : NvArray) : NvArray :=
  match j with
  | none => a
  | some (.proposal _ _ plans results) =>
    match plans[results.length]? with
    | none => a
    | some p => leaveSlot p i.header (if p.kind = .create ∧ i.header ≠ .old then .new else i.body) a
  | some (.moduleRec c) => leaveRecord (.moduleRec c) i.record a
  | some (.sect n c) => leaveRecord (.sect n c) i.record a
  | some (.station n c) => leaveRecord (.station n c) i.record a

end Sys2Proof.Machine
end

