-- ==== Sys2Proof/Machine/Judgement.lean ====
section
/-! DEFINITION. Divergence lists, rebuilds, judgement and re-judgement of station records (R97 to R111). -/

namespace Sys2Proof.Machine

/-! ### The divergence list (R97, R98) -/

/-- The record is about parameter `p`. -/
def DivRecord.about (r : DivRecord) (p : ParamNo) : Bool :=
  match r with
  | .param q _ _ => q == p
  | .level _ _ _ => false

/-- The record is the station-level record. -/
def DivRecord.isLevel (r : DivRecord) : Bool :=
  match r with
  | .param _ _ _ => false
  | .level _ _ _ => true

/-- A station record with a record at the end of its list, or with overflow set where the list is full. -/
def StationRec.append (r : StationRec) (d : DivRecord) : StationRec :=
  if r.list.length < Config.listCapacity then { r with list := r.list ++ [d] }
  else { r with overflow := true }

/-- A parameter's finding: its record is updated in place, its value kept where the finding carries none, or
a new record joins (R98). -/
def StationRec.find (r : StationRec) (p : ParamNo) (kind : ParamKind) (value : Option Word) : StationRec :=
  if r.list.any fun d => d.about p then
    { r with
      list := r.list.map fun d =>
        match d with
        | .param q _ old => if q = p then .param q kind (value.or old) else d
        | .level _ _ _ => d }
  else r.append (.param p kind value)

/-- A station-level finding: the record is updated in place, or joins (R98). -/
def StationRec.findLevel (r : StationRec) (kind : LevelKind) (f : FormatNo) (digest : Word) : StationRec :=
  if r.list.any DivRecord.isLevel then
    { r with list := r.list.map fun d => if d.isLevel then .level kind f digest else d }
  else r.append (.level kind f digest)

/-- The record of parameter `p` is removed (R98). -/
def StationRec.settleParam (r : StationRec) (p : ParamNo) : StationRec :=
  { r with list := r.list.filter fun d => !d.about p }

/-- The station-level record is removed (R98). -/
def StationRec.settleLevel (r : StationRec) : StationRec :=
  { r with list := r.list.filter fun d => !d.isLevel }

/-! ### Rebuild (R100) -/

/-- The parameters that resolve to a DAMAGED entry for a station in a format, ascending. -/
def damagedParams (m : SlotMap Entry) (st : StationNo) (f : FormatNo) : List ParamNo :=
  pick fun p => decide (resolutionOf (resolve m ⟨st, f, p⟩) = .damaged)

/-- The window timer started with the station's report window (R104). -/
def StationRec.startTimer (r : StationRec) : StationRec :=
  { r with timer := some (r.persist.window * Config.second) }

/-- Rebuild of a station's record from the table (R100). -/
def rebuildRec (m : SlotMap Entry) (st : StationNo) (r : StationRec) : StationRec :=
  let damaged := damagedParams m st r.persist.format
  { r with
    list := (damaged.take Config.listCapacity).map fun p => .param p .damaged none
    overflow := decide (Config.listCapacity < damaged.length)
    digestSeen := false
    stale := false
    timer := if r.holder.isSome then r.timer else some (r.persist.window * Config.second) }

/-! ### Judgement of reports (R102, R105, R106, R107) -/

/-- The finding of a value against an ACTIVE entry's body, by steps 3 to 5 of R102; none is CONFORMS. -/
def judgeBody (b : Body) (v : Word) : Option ParamKind :=
  if !aboveLow b.low v || !belowHigh b.high v then some .outOfBounds
  else if deviates v b.value b.tolerance then some .deviates
  else none

/-- The finding of a live value against the entry that resolves, by the steps of R102; none is CONFORMS. -/
def judgeValue (e : Option Entry) (v : Word) : Option ParamKind :=
  match e with
  | none => some .unknownParameter
  | some e =>
    match e.body with
    | none => some .damaged
    | some b => judgeBody b v

/-- The finding of a value report recorded (R102). -/
def recordValue (p : ParamNo) (v : Word) (finding : Option ParamKind) (r : StationRec) : StationRec :=
  match finding with
  | some k => r.find p k (some v)
  | none => r.settleParam p

/-- A DAMAGED entry applies in the station's active format for which its list holds no record (R105). -/
def unlistedDamage (m : SlotMap Entry) (st : StationNo) (r : StationRec) : Bool :=
  (damagedParams m st r.persist.format).any fun p => !(r.list.any fun d => d.about p)

/-- MATCH (R105). -/
def recordMatch (m : SlotMap Entry) (st : StationNo) (r : StationRec) : StationRec :=
  { r.settleLevel with
    digestSeen := true
    overflow := r.overflow && unlistedDamage m st r }

/-! ### Re-judgement (R110, R111) -/

/-- A completed change with the key `k` hands format `f` to the conformance unit (Table 9, R83): an
override's own format; for a base, every format of no override. -/
def Key.hands (m : SlotMap Entry) (k : Key) (f : FormatNo) : Bool :=
  k.format == f || (k.format == 0 && (entryAt m ⟨k.station, f, k.param⟩).isNone)

/-- The record held for `p`, if any: its value. -/
def StationRec.heldFor (r : StationRec) (p : ParamNo) : Option (Option Word) :=
  (r.list.find? fun d => d.about p).map fun d =>
    match d with
    | .param _ _ v => v
    | .level _ _ _ => none

/-- Re-judgement of one parameter of a station's record (Table 32): `before` is how it resolved, `now` the
entry it resolves to after the whole completion. -/
def rejudgeRec (p : ParamNo) (before : Resolution) (now : Option Entry) (r : StationRec) : StationRec :=
  match r.heldFor p with
  | some (some v) =>
    match now with
    | none => r.find p .unknownParameter none
    | some e =>
      match e.body with
      | none => r.find p .damaged none
      | some b =>
        match judgeBody b v with
        | some k => r.find p k none
        | none => r.settleParam p
  | some none => if resolutionOf now = .damaged then r else r.settleParam p
  | none => if resolutionOf now = .damaged ∧ before ≠ .damaged then r.append (.param p .damaged none) else r

/-- A station is re-judged for a parameter: it is enrolled and not held, and some key of the completion of
that parameter hands its active format (R110). -/
def StationRec.judged (m : SlotMap Entry) (keys : List Key) (t : StationNo × ParamNo) (r : StationRec) : Bool :=
  r.persist.enrolled && r.holder.isNone &&
    keys.any fun k => k.station == t.1 && k.param == t.2 && k.hands m r.persist.format

/-- Re-judgement of one parameter that a completion touched (R110, R111). -/
def rejudgeOne (before : SlotMap Entry) (keys : List Key) (s : State) (t : StationNo × ParamNo) : State :=
  let r := sel s.stations t.1
  if r.judged before keys t then
    s.setStation t.1
      (rejudgeRec t.2 (resolutionOf (resolve before ⟨t.1, r.persist.format, t.2⟩))
        (resolve s.slots ⟨t.1, r.persist.format, t.2⟩) r)
  else s

/-- Re-judgement after a completion whose table was `before` (R82, R110). -/
def rejudge (before : SlotMap Entry) (keys : List Key) (s : State) : State :=
  (targetsOf keys).foldl (rejudgeOne before keys) s

end Sys2Proof.Machine
end

