-- ==== Sys2Proof/Machine/Sections.lean ====
section
/-! DEFINITION. The section controller: recompute, the beginning and the end of a changeover, and its requests (chapter 6). -/

namespace Sys2Proof.Machine

/-! ### Recompute (R125) -/

/-- Section `sec` STEADY on format `f`; a change of the format asks for a write of its record (R125, R127). -/
def steadyOn (sec : SectionNo) (f : FormatNo) (s : State) : State :=
  let r := sel s.sections sec
  let s' := s.setSectionRec sec ⟨{ r.persist with format := f }, .steady⟩
  if f = r.persist.format then s' else enqueue (.sect sec) s'

/-- Section `sec` SPLIT, its format unchanged (R125). -/
def splitSection (sec : SectionNo) (s : State) : State :=
  s.setSectionRec sec ⟨(sel s.sections sec).persist, .split⟩

/-- The active formats of the stations enrolled in section `sec`. -/
def State.formatsIn (s : State) (sec : SectionNo) : List FormatNo :=
  (s.enrolledIn sec).map fun st => (sel s.stations st).persist.format

/-- Recompute of a section that is not CHANGING (R125, R126). -/
def recompute (sec : SectionNo) (s : State) : State :=
  if s.changing sec then s
  else
    match s.formatsIn sec with
    | [] => steadyOn sec (sel s.sections sec).persist.format s
    | f :: rest => if rest.all fun g => g == f then steadyOn sec f s else splitSection sec s

/-! ### The end of a changeover (R134) -/

/-- The pending flags of section `sec` cleared (R108). -/
def clearPending (sec : SectionNo) (s : State) : State :=
  { s with
    stations := each s.stations fun _ r =>
      if r.persist.enrolled && r.persist.sect == sec then { r with pending := false } else r }

/-- The end of a changeover: pending flags cleared, target and timer dropped, and the recompute (R134). -/
def endChangeover (sec : SectionNo) (s : State) : State :=
  let s1 := clearPending sec s
  recompute sec (s1.setSectionRec sec ⟨(sel s1.sections sec).persist, .steady⟩)

/-- The adoption notice of a station of section `sec` (R131): the changeover ends when no station is left in
its pending set. -/
def adoptionNotice (sec : SectionNo) (s : State) : State :=
  if s.changing sec && (s.pendingSet sec).isEmpty then endChangeover sec s else s

/-! ### CHANGEOVER (R128, R130) -/

/-- The pending flags set of the enrolled stations of section `sec` that are off the target (R108, R128). -/
def markPending (sec : SectionNo) (target : FormatNo) (s : State) : State :=
  { s with
    stations := each s.stations fun _ r =>
      if r.persist.enrolled && r.persist.sect == sec && r.persist.format != target then
        { r with pending := true }
      else r }

/-- The immediate end of a changeover whose pending set is empty (R130). -/
def endAtOnce (sec : SectionNo) (target : FormatNo) (s : State) : State :=
  enqueue (.sect sec)
    (s.setSectionRec sec ⟨{ (sel s.sections sec).persist with format := target }, .steady⟩)

/-- The beginning of a changeover (R128). -/
def beginChangeover (sec : SectionNo) (target : FormatNo) (s : State) : State :=
  let p := (sel s.sections sec).persist
  let s1 := markPending sec target (s.setSectionRec sec ⟨p, .changing target (p.deadline * Config.second)⟩)
  if (s1.pendingSet sec).isEmpty then endAtOnce sec target s1 else s1

/-- CHANGEOVER (R128). -/
def runChangeover (a : Args) (s : State) : State × Reply :=
  match sectionArg a, productFormatOf (argByte a 1).toNat with
  | some sec, some target =>
    let r := sel s.sections sec
    if s.changing sec then (s, .refuse .sectionBusy)
    else if r.state = .steady ∧ target = r.persist.format then (s, .refuse .sameFormat)
    else
      let t := beginChangeover sec target s
      (t, .done ([byteOf (sel t.sections sec).state.code, byteOf (t.pendingSet sec).length] ++
        numBytes r.persist.deadline))
  | _, _ => (s, .refuse .badArgument)

/-- ABORT_CHANGEOVER (R137). -/
def runAbortChangeover (a : Args) (s : State) : State × Reply :=
  match sectionArg a with
  | none => (s, .refuse .badArgument)
  | some sec =>
    if s.changing sec then
      let t := endChangeover sec s
      (t, .done [1, byteOf (sel t.sections sec).state.code, byteOf (sel t.sections sec).persist.format.val,
        byteOf (s.pendingSet sec).length])
    else
      (s, .done [0, byteOf (sel s.sections sec).state.code, byteOf (sel s.sections sec).persist.format.val, 0])

/-- SET_SECTION (R139). -/
def runSetSection (a : Args) (s : State) : State × Reply :=
  match sectionArg a with
  | none => (s, .refuse .badArgument)
  | some sec =>
    let deadline := (argHalf a 1).toNat
    if deadline < 30 ∨ 3600 < deadline then (s, .refuse .badArgument)
    else if s.changing sec then (s, .refuse .sectionBusy)
    else
      let r := sel s.sections sec
      (enqueue (.sect sec) (s.setSectionRec sec { r with persist := { r.persist with deadline := deadline } }),
        .done (numBytes deadline))

/-- The target format of a section, 0 outside CHANGING (R140). -/
def SectionState.target : SectionState → Nat
  | .steady => 0
  | .changing target _ => target.val
  | .split => 0

/-- The deadline timer of a section: running in CHANGING alone (R133). -/
def SectionState.timer : SectionState → Timer
  | .steady => none
  | .changing _ remaining => some remaining
  | .split => none

/-- READ_SECTION (R140). -/
def answerReadSection (a : Args) (s : State) : Reply :=
  match sectionArg a with
  | none => .refuse .badArgument
  | some sec =>
    let r := sel s.sections sec
    .done ([byteOf r.state.code, byteOf r.persist.format.val, byteOf r.state.target,
        byteOf (s.enrolledIn sec).length,
        byteOf (if s.changing sec then (s.pendingSet sec).length else 0)] ++
      numBytes (secondsShown r.state.timer) ++ numBytes r.persist.deadline ++
      [outputByte (sel s.outputs sec)])

def changeoverRequest : RequestSpec := ⟨0x50, 2, operatorOrEngineer, fun _ a s => runChangeover a s⟩
def abortChangeoverRequest : RequestSpec := ⟨0x51, 1, operatorOrEngineer, fun _ a s => runAbortChangeover a s⟩
def setSectionRequest : RequestSpec := ⟨0x52, 3, engineerOnly, fun _ a s => runSetSection a s⟩
def readSectionRequest : RequestSpec := ⟨0x53, 1, anyRole, fun _ a s => (s, answerReadSection a s)⟩

/-- CHANGEOVER (R128). -/
def execChangeover (ch : ChannelNo) (a : Args) (s : State) : Host.Outcome State Fault Refusal :=
  .next (takeRequest changeoverRequest ch a s)

/-- ABORT_CHANGEOVER (R137). -/
def execAbortChangeover (ch : ChannelNo) (a : Args) (s : State) : Host.Outcome State Fault Refusal :=
  .next (takeRequest abortChangeoverRequest ch a s)

/-- SET_SECTION (R139). -/
def execSetSection (ch : ChannelNo) (a : Args) (s : State) : Host.Outcome State Fault Refusal :=
  .next (takeRequest setSectionRequest ch a s)

/-- READ_SECTION (R140). -/
def execReadSection (ch : ChannelNo) (a : Args) (s : State) : Host.Outcome State Fault Refusal :=
  .next (takeRequest readSectionRequest ch a s)

/-- DEADLINE_EXPIRY: the changeover of a CHANGING section whose deadline is due ends as EXPIRED; after another
end of that changeover no expiry occurs (R133, R134, R136, R138). -/
def execDeadlineExpiry (sec : SectionNo) (s : State) : Host.Outcome State Fault Refusal :=
  .next (if timerDue (sel s.sections sec).state.timer then settle s (endChangeover sec s) else s)

end Sys2Proof.Machine
end

