-- ==== Sys2Proof/Machine/Conformance.lean ====
section
/-! DEFINITION. The conformance unit's requests: enrolment, reports, holds and reading, and the window expiry (chapter 5). -/

namespace Sys2Proof.Machine

/-! ### Enrolment (R95, R96) -/

/-- The record of a station after ENROLL's first three effects (R95). -/
def enrollRec (m : SlotMap Entry) (st : StationNo) (sec : SectionNo) (window : Nat) (f : FormatNo)
    (r : StationRec) : StationRec :=
  rebuildRec m st { r with persist := ⟨true, sec, window, f⟩ }

/-- ENROLL (R95). -/
def runEnroll (a : Args) (s : State) : State × Reply :=
  match stationArg a, sectionOf (argByte a 1).toNat with
  | some st, some sec =>
    let window := (argByte a 2).toNat
    let old := sel s.stations st
    if window < 1 ∨ 250 < window then (s, .refuse .badArgument)
    else if (old.persist.enrolled && s.changing old.persist.sect) || s.changing sec then
      (s, .refuse .sectionBusy)
    else
      let f := (sel s.sections sec).persist.format
      let s1 := enqueue (.station st) (s.setStation st (enrollRec s.slots st sec window f old))
      let s2 := recompute sec s1
      (if old.persist.enrolled && old.persist.sect != sec then recompute old.persist.sect s2 else s2,
        .done [byteOf f.val])
  | _, _ => (s, .refuse .badArgument)

/-- UNENROLL (R96). -/
def runUnenroll (a : Args) (s : State) : State × Reply :=
  match stationArg a with
  | none => (s, .refuse .badArgument)
  | some st =>
    let r := sel s.stations st
    if !r.persist.enrolled then (s, .refuse .notEnrolled)
    else if s.changing r.persist.sect then (s, .refuse .sectionBusy)
    else
      (recompute r.persist.sect
        (enqueue (.station st) (s.setStation st (.idle { r.persist with enrolled := false }))),
        .done [])

/-! ### Reports (R101 to R107) -/

/-- The verdict a finding is answered with. -/
def findingVerdict : Option ParamKind → Verdict
  | none => .conforms
  | some .deviates => .deviates
  | some .outOfBounds => .outOfBounds
  | some .unknownParameter => .unknownParameter
  | some .damaged => .damaged

/-- The fields a report's answer begins with: verdict, derived state, list length (R102, R103). -/
def reportFields (v : Verdict) (r : StationRec) : List Byte :=
  [v.byte, (derivedState r).byte, byteOf r.list.length]

/-- REPORT_VALUE (R101, R102). -/
def runReportValue (a : Args) (s : State) : State × Reply :=
  match stationArg a, paramOf (argHalf a 1).toNat with
  | some st, some p =>
    let r := sel s.stations st
    let v := argWord a 3
    if !r.persist.enrolled then (s, .refuse .notEnrolled)
    else if r.holder.isSome then (s, .done (reportFields .held r))
    else
      let e := resolve s.slots ⟨st, r.persist.format, p⟩
      let r' := recordValue p v (judgeValue e v) r
      (s.setStation st r',
        .done (reportFields (findingVerdict (judgeValue e v)) r' ++
          halfBytes ((e.map Entry.statedRevision).getD 0)))
  | _, _ => (s, .refuse .badArgument)

/-- The answer of a judged digest report with the pair it was compared with (R103). -/
def digestAnswer (v : Verdict) (r : StationRec) (d : DigestPair) : Reply :=
  .done (reportFields v r ++ wordBytes d.digest ++ numBytes d.count)

/-- A digest report in the active format (R105). -/
def reportActive (st : StationNo) (f : FormatNo) (d : DigestPair) (r : StationRec) (s : State) : State × Reply :=
  let r' := if s.pairOf st f = d then recordMatch s.slots st r else r.findLevel .digestMismatch f d.digest
  (s.setStation st r',
    digestAnswer (if s.pairOf st f = d then .hit else .mismatch) r' (s.pairOf st f))

/-- The record of an adopting station: its new active format, pending cleared, rebuilt, digest-seen set
(R106). -/
def adoptRec (m : SlotMap Entry) (st : StationNo) (f : FormatNo) (r : StationRec) : StationRec :=
  { rebuildRec m st { r with persist := { r.persist with format := f }, pending := false } with
    digestSeen := true }

/-- An adoption report (R106). -/
def reportAdoption (st : StationNo) (f : FormatNo) (d : DigestPair) (r : StationRec) (s : State) :
    State × Reply :=
  if s.pairOf st f = d then
    let r' := adoptRec s.slots st f r
    (adoptionNotice r.persist.sect (enqueue (.station st) (s.setStation st r')),
      digestAnswer .adopted r' (s.pairOf st f))
  else
    let r' := r.findLevel .digestMismatch f d.digest
    (s.setStation st r', digestAnswer .mismatch r' (s.pairOf st f))

/-- A digest report in a format that is not expected of the station (R107). -/
def reportWrongFormat (st : StationNo) (f : FormatNo) (d : DigestPair) (r : StationRec) (s : State) :
    State × Reply :=
  let r' := r.findLevel .wrongFormat f d.digest
  (s.setStation st r', digestAnswer .wrongFormat r' ⟨0, 0⟩)

/-- Section `sec` is CHANGING to format `f`. -/
def State.changingTo (s : State) (sec : SectionNo) (f : FormatNo) : Bool :=
  match (sel s.sections sec).state with
  | .steady => false
  | .changing target _ => target == f
  | .split => false

/-- A digest report judged (R103): `r` is the station's record with stale cleared and its timer started. -/
def judgeDigest (st : StationNo) (f : FormatNo) (d : DigestPair) (r : StationRec) (s : State) : State × Reply :=
  if f = r.persist.format then reportActive st f d r s
  else if r.pending && s.changingTo r.persist.sect f then reportAdoption st f d r s
  else reportWrongFormat st f d r s

/-- REPORT_DIGEST (R103). -/
def runReportDigest (a : Args) (s : State) : State × Reply :=
  match stationArg a, productFormatOf (argByte a 1).toNat with
  | some st, some f =>
    let r := sel s.stations st
    let count := (argHalf a 2).toNat
    if 1024 < count then (s, .refuse .badArgument)
    else if !r.persist.enrolled then (s, .refuse .notEnrolled)
    else if r.holder.isSome then (s, digestAnswer .held r ⟨0, 0⟩)
    else judgeDigest st f ⟨argWord a 4, count⟩ { r.startTimer with stale := false } s
  | _, _ => (s, .refuse .badArgument)

/-! ### Holds (R112 to R114) -/

/-- HOLD (R112). -/
def runHold (ch : ChannelNo) (a : Args) (s : State) : State × Reply :=
  match stationArg a with
  | none => (s, .refuse .badArgument)
  | some st =>
    let r := sel s.stations st
    if !r.persist.enrolled then (s, .refuse .notEnrolled)
    else
      match r.holder with
      | none => (s.setStation st { r with holder := some ch, timer := none }, .done [0])
      | some c => if c = ch then (s, .done [holderByte (some ch)]) else (s, .now .heldByOther [holderByte (some c)])

/-- RELEASE_HOLD (R114). -/
def runReleaseHold (ch : ChannelNo) (a : Args) (s : State) : State × Reply :=
  match stationArg a with
  | none => (s, .refuse .badArgument)
  | some st =>
    let r := sel s.stations st
    if !r.persist.enrolled then (s, .refuse .notEnrolled)
    else
      match r.holder with
      | none => (s, .done [0])
      | some c =>
        if c ≠ ch ∧ s.role ch = .operator then (s, deniedFor (s.role ch))
        else
          (s.setStation st (rebuildRec s.slots st { r with holder := none }), .done [holderByte (some c)])

/-! ### Reading (R99, R117) -/

/-- READ_STATION (R117). -/
def answerReadStation (a : Args) (s : State) : Reply :=
  match stationArg a with
  | none => .refuse .badArgument
  | some st =>
    let r := sel s.stations st
    .done [(derivedState r).byte, stationFlags r, byteOf r.persist.format.val,
      byteOf (r.persist.sect.val + 1), byteOf r.persist.window, byteOf r.list.length,
      holderByte r.holder, byteOf (secondsShown r.timer)]

/-- The result bytes of one record of a divergence list (R99, Table 60). -/
def recordBytes (r : StationRec) (d : DivRecord) : List Byte :=
  match d with
  | .param p kind v =>
    [kind.byte, bitsByte [v.isSome, r.overflow]] ++ numBytes p.val ++ wordBytes (v.getD 0)
  | .level kind f digest =>
    [kind.byte, bitsByte [false, r.overflow], byteOf f.val, 0] ++ wordBytes digest

/-- READ_DIVERGENCE (R99). -/
def answerReadDivergence (a : Args) (s : State) : Reply :=
  match stationArg a with
  | none => .refuse .badArgument
  | some st =>
    let r := sel s.stations st
    if 7 < (argByte a 1).toNat then .refuse .badArgument
    else
      match r.list[(argByte a 1).toNat]? with
      | none => .now .listEnd []
      | some d => .done (recordBytes r d)

/-! ### The requests -/

def enrollRequest : RequestSpec := ⟨0x40, 3, engineerOnly, fun _ a s => runEnroll a s⟩
def unenrollRequest : RequestSpec := ⟨0x41, 1, engineerOnly, fun _ a s => runUnenroll a s⟩
def reportValueRequest : RequestSpec := ⟨0x42, 7, anyRole, fun _ a s => runReportValue a s⟩
def reportDigestRequest : RequestSpec := ⟨0x43, 8, anyRole, fun _ a s => runReportDigest a s⟩
def holdRequest : RequestSpec := ⟨0x44, 1, signedOn, runHold⟩
def releaseHoldRequest : RequestSpec := ⟨0x45, 1, signedOn, runReleaseHold⟩
def readStationRequest : RequestSpec := ⟨0x46, 1, anyRole, fun _ a s => (s, answerReadStation a s)⟩
def readDivergenceRequest : RequestSpec := ⟨0x47, 2, anyRole, fun _ a s => (s, answerReadDivergence a s)⟩

/-- ENROLL (R95). -/
def execEnroll (ch : ChannelNo) (a : Args) (s : State) : Host.Outcome State Fault Refusal :=
  .next (takeRequest enrollRequest ch a s)

/-- UNENROLL (R96). -/
def execUnenroll (ch : ChannelNo) (a : Args) (s : State) : Host.Outcome State Fault Refusal :=
  .next (takeRequest unenrollRequest ch a s)

/-- REPORT_VALUE (R102). -/
def execReportValue (ch : ChannelNo) (a : Args) (s : State) : Host.Outcome State Fault Refusal :=
  .next (takeRequest reportValueRequest ch a s)

/-- REPORT_DIGEST (R103). -/
def execReportDigest (ch : ChannelNo) (a : Args) (s : State) : Host.Outcome State Fault Refusal :=
  .next (takeRequest reportDigestRequest ch a s)

/-- HOLD (R112). -/
def execHold (ch : ChannelNo) (a : Args) (s : State) : Host.Outcome State Fault Refusal :=
  .next (takeRequest holdRequest ch a s)

/-- RELEASE_HOLD (R114). -/
def execReleaseHold (ch : ChannelNo) (a : Args) (s : State) : Host.Outcome State Fault Refusal :=
  .next (takeRequest releaseHoldRequest ch a s)

/-- READ_STATION (R117). -/
def execReadStation (ch : ChannelNo) (a : Args) (s : State) : Host.Outcome State Fault Refusal :=
  .next (takeRequest readStationRequest ch a s)

/-- READ_DIVERGENCE (R99). -/
def execReadDivergence (ch : ChannelNo) (a : Args) (s : State) : Host.Outcome State Fault Refusal :=
  .next (takeRequest readDivergenceRequest ch a s)

/-- WINDOW_EXPIRY: a window timer that is due expires, stale is set and the timer stops; where a report, a
rebuild, a hold or an unenrolment has started it again or stopped it, no expiry occurs (R104). -/
def execWindowExpiry (st : StationNo) (s : State) : Host.Outcome State Fault Refusal :=
  .next (if timerDue (sel s.stations st).timer then
    settle s (s.setStation st { sel s.stations st with timer := none, stale := true })
  else s)

end Sys2Proof.Machine
end

