-- ==== Sys2Proof/Machine/Drafts.lean ====
section
/-! DEFINITION. Drafts: DRAFT_BEGIN to DRAFT_DISCARD, and the submission checks of DRAFT_SUBMIT (sections 3.1 and 3.2). -/

namespace Sys2Proof.Machine

/-- The draft of channel `ch`. -/
def State.draft (s : State) (ch : ChannelNo) : Option (List Change) := (sel s.channels ch).draft

/-- The state with the draft of channel `ch` replaced. -/
def State.setDraft (s : State) (ch : ChannelNo) (d : Option (List Change)) : State :=
  s.onChannel ch fun c => { c with draft := d }

/-- DRAFT_BEGIN (R40). -/
def runDraftBegin (ch : ChannelNo) (s : State) : State × Reply := (s.setDraft ch (some []), .done [0])

/-- DRAFT_DISCARD (R40). -/
def runDraftDiscard (ch : ChannelNo) (s : State) : State × Reply := (s.setDraft ch none, .done [0])

/-- A change is added to the draft, by checks 2 to 4 of R41. -/
def addChange (ch : ChannelNo) (c : Change) (s : State) : State × Reply :=
  match s.draft ch with
  | none => (s, .refuse .noDraft)
  | some l =>
    if 2 ≤ l.length then (s, .refuse .draftFull)
    else if l.any fun d => d.key == c.key then (s, .refuse .duplicateKey)
    else (s.setDraft ch (some (l ++ [c])), .done [byteOf (l.length + 1)])

/-- DRAFT_SET (R41). -/
def runDraftSet (ch : ChannelNo) (a : Args) (s : State) : State × Reply :=
  match keyArg a with
  | none => (s, .refuse .badArgument)
  | some k => addChange ch (.set k (argHalf a 4) (argWord a 6) .unchanged .unchanged none) s

/-- DRAFT_CREATE (R41). -/
def runDraftCreate (ch : ChannelNo) (a : Args) (s : State) : State × Reply :=
  match keyArg a, classOf (argByte a 8).toNat with
  | some k, some cls => addChange ch (.create k (argWord a 4) .unchanged .unchanged none cls none) s
  | _, _ => (s, .refuse .badArgument)

/-- DRAFT_RETIRE (R41). -/
def runDraftRetire (ch : ChannelNo) (a : Args) (s : State) : State × Reply :=
  match keyArg a with
  | none => (s, .refuse .badArgument)
  | some k => addChange ch (.retire k (argHalf a 4)) s

/-- The current change, the one added last, is amended by `f`; the answers NO_DRAFT, NO_CHANGE and, where `f`
does not apply to it, BAD_ARGUMENT are checks 2 to 4 of R42 and R43. -/
def amend (ch : ChannelNo) (f : Change → Option Change) (s : State) : State × Reply :=
  match s.draft ch with
  | none => (s, .refuse .noDraft)
  | some l =>
    match l.getLast? with
    | none => (s, .refuse .noChange)
    | some c =>
      match f c with
      | none => (s, .refuse .badArgument)
      | some c' => (s.setDraft ch (some (l.dropLast ++ [c'])), .done [byteOf l.length])

/-- The bound fields of a change replaced; a RETIRE has none (R42). -/
def Change.withBounds (low high : BoundField) : Change → Option Change
  | .set k e v _ _ t => some (.set k e v low high t)
  | .create k v _ _ t cls p => some (.create k v low high t cls p)
  | .retire _ _ => none

/-- The tolerance of a change given; a RETIRE has none (R43). -/
def Change.withTolerance (t : Half) : Change → Option Change
  | .set k e v low high _ => some (.set k e v low high (some t))
  | .create k v low high _ cls p => some (.create k v low high (some t) cls p)
  | .retire _ _ => none

/-- The partner of a CREATE named, another parameter than its own (R43). -/
def Change.withPartner (q : ParamNo) : Change → Option Change
  | .create k v low high t cls _ => if q = k.param then none else some (.create k v low high t cls (some q))
  | .set _ _ _ _ _ _ => none
  | .retire _ _ => none

/-- DRAFT_BOUNDS (R42). A bit set outside the two selectors is out of the stated values (R191). -/
def runDraftBounds (ch : ChannelNo) (a : Args) (s : State) : State × Reply :=
  let sels := (argByte a 0).toNat
  match boundOf (sels % 4) (argWord a 1), boundOf (sels / 4) (argWord a 5) with
  | some low, some high => amend ch (Change.withBounds low high) s
  | _, _ => (s, .refuse .badArgument)

/-- DRAFT_TOLERANCE (R43). -/
def runDraftTolerance (ch : ChannelNo) (a : Args) (s : State) : State × Reply :=
  amend ch (Change.withTolerance (argHalf a 0)) s

/-- DRAFT_PARTNER (R43). -/
def runDraftPartner (ch : ChannelNo) (a : Args) (s : State) : State × Reply :=
  match paramOf (argHalf a 0).toNat with
  | none => (s, .refuse .badArgument)
  | some q => amend ch (Change.withPartner q) s

/-! ### Submission (R44 to R50) -/

/-- The class a change is about: the entry's for a SET or RETIRE, its own for a CREATE (R45). -/
def classAt (m : SlotMap Entry) : Change → Option EntryClass
  | .set k _ _ _ _ _ => (entryAt m k).map Entry.cls
  | .create _ _ _ _ _ cls _ => some cls
  | .retire k _ => (entryAt m k).map Entry.cls

/-- A value-only SET (R38). -/
def Change.valueOnly : Change → Bool
  | .set _ _ _ low high t => low == .unchanged && high == .unchanged && t.isNone
  | .create _ _ _ _ _ _ _ => false
  | .retire _ _ => false

/-- A value-only SET of an entry that exists and is TUNABLE (R45, R54). -/
def plainTrim (m : SlotMap Entry) (c : Change) : Bool := c.valueOnly && classAt m c == some .tunable

/-- A change of class FIXED meets a closed release (R45, R67). -/
def State.releaseBars (s : State) (c : Change) : Bool :=
  classAt s.slots c == some .fixed && s.release.isNone

/-- Check 2 of submission on change `i` (R45): the role, then the release. -/
def checkRole (s : State) (role : Role) (i : Nat) (c : Change) : Option Reply :=
  if role == .operator && !plainTrim s.slots c then some (.now .denied [role.byte, 0, byteOf i])
  else if s.releaseBars c then some (.now .releaseClosed [byteOf i])
  else none

/-- Check 3: existence (R46). -/
def checkExists (s : State) (i : Nat) (c : Change) : Option Reply :=
  match c.kind, entryAt s.slots c.key with
  | .create, some _ => some (.now .exists [byteOf i])
  | .create, none => none
  | .set, none => some (.now .noEntry [byteOf i])
  | .set, some _ => none
  | .retire, none => some (.now .noEntry [byteOf i])
  | .retire, some _ => none

/-- The expected revision a change states; a CREATE states none (R38). -/
def Change.expected : Change → Option Half
  | .set _ e _ _ _ _ => some e
  | .create _ _ _ _ _ _ _ => none
  | .retire _ e => some e

/-- Check 4: revision (R46). -/
def checkRevision (s : State) (i : Nat) (c : Change) : Option Reply :=
  match c.expected with
  | none => none
  | some e =>
    if e = revisionAt s.slots c.key then none
    else some (.now .revisionMismatch (byteOf i :: halfBytes (revisionAt s.slots c.key)))

/-- The partner a change itself names (R38). -/
def Change.named : Change → Option ParamNo
  | .set _ _ _ _ _ _ => none
  | .create _ _ _ _ _ _ p => p
  | .retire _ _ => none

/-- Check 5: partners (R47). -/
def checkPartner (s : State) (all : List Change) (i : Nat) (c : Change) : Option Reply :=
  match partnerOf s.slots c with
  | none => none
  | some q =>
    match all.find? (fun d => d.key == { c.key with param := q }) with
    | none => some (.now (if c.kind = .create then .partnerInvalid else .partnerRequired) [byteOf i])
    | some d =>
      if d.kind = c.kind ∧ (c.kind = .create → d.named = some c.key.param) then none
      else some (.now .partnerInvalid [byteOf i])

/-- The bounds and the value a SET or CREATE will give its entry (R48); a RETIRE gives none. -/
def Change.effective (m : SlotMap Entry) : Change → Option (Option Word × Option Word × Word)
  | .set k _ v low high _ =>
    let body := (entryAt m k).bind Entry.body
    some (low.after (body.bind Body.low), high.after (body.bind Body.high), v)
  | .create _ v low high _ _ _ => some (low.after none, high.after none, v)
  | .retire _ _ => none

/-- Check 6: bounds (R48). -/
def checkBounds (s : State) (i : Nat) (c : Change) : Option Reply :=
  match c.effective s.slots with
  | none => none
  | some (low, high, v) =>
    if !boundsOrdered low high then some (.now .boundsInvalid [byteOf i])
    else if !(aboveLow low v && belowHigh high v) then some (.now .outOfBounds [byteOf i])
    else none

/-- A SET states its whole body: both bound fields and its tolerance (R48). -/
def Change.wholeBody : Change → Bool
  | .set _ _ _ low high t => low != .unchanged && high != .unchanged && t.isSome
  | .create _ _ _ _ _ _ _ => true
  | .retire _ _ => true

/-- The key has an entry, and it is DAMAGED. -/
def damagedAt (m : SlotMap Entry) (k : Key) : Bool := resolutionOf (entryAt m k) == .damaged

/-- Check 7: repair (R48). -/
def checkRepair (s : State) (i : Nat) (c : Change) : Option Reply :=
  if damagedAt s.slots c.key && !c.wholeBody then some (.now .badArgument [byteOf i]) else none

/-- Check 8: conflict (R49). -/
def checkConflict (s : State) (i : Nat) (c : Change) : Option Reply :=
  match s.proposals.find? (fun p => p.holds c.key) with
  | none => none
  | some p => some (.now .conflict [byteOf i, byteOf p.number])

/-- One check made change by change, in draft order from index `i` (R44). -/
def checkEach (f : Nat → Change → Option Reply) : Nat → List Change → Option Reply
  | _, [] => none
  | i, c :: rest => (f i c).or (checkEach f (i + 1) rest)

/-- CREATE changes held by the open proposals (R49). -/
def State.openCreates (s : State) : Nat := (s.proposals.map fun p => createCount p.changes).sum

/-- The room that submission has (R49). -/
def State.submitRoom (s : State) : Nat := s.freeSlots - s.openCreates

/-- Check 9: table room (R49). -/
def checkRoom (s : State) (l : List Change) : Option Reply :=
  if s.submitRoom < createCount l then some (.now .tableFull (numBytes s.submitRoom)) else none

/-- Check 10: list room (R49). -/
def checkList (s : State) : Option Reply :=
  if Config.proposalCapacity ≤ s.proposals.length then some (.refuse .listFull) else none

/-- Checks 2 to 10 of Table 19; the first that fails gives the answer (R44). -/
def submissionChecks (s : State) (role : Role) (l : List Change) : Option Reply :=
  (checkEach (checkRole s role) 0 l).or <|
  (checkEach (checkExists s) 0 l).or <|
  (checkEach (checkRevision s) 0 l).or <|
  (checkEach (checkPartner s l) 0 l).or <|
  (checkEach (checkBounds s) 0 l).or <|
  (checkEach (checkRepair s) 0 l).or <|
  (checkEach (checkConflict s) 0 l).or <|
  (checkRoom s l).or <|
  checkList s

/-- The required approver of some changes (R54). -/
def requiredApprover (m : SlotMap Entry) (l : List Change) : Approver :=
  if l.all (plainTrim m) then .engineerOrQuality else .qualityOnly

/-- The number after `n`, 255 followed by 1 (R52). -/
def numberAfter (n : Nat) : Nat := if 255 ≤ n then 1 else n + 1

/-- The first number after `n` that no open proposal holds (R52); `fuel` bounds the steps. -/
def freeNumber (held : List Nat) : Nat → Nat → Nat
  | 0, n => numberAfter n
  | fuel + 1, n => if held.contains (numberAfter n) then freeNumber held fuel (numberAfter n) else numberAfter n

/-- The number a new proposal takes (R52). At most 16 are passed over, since the list holds 16 at most. -/
def State.newNumber (s : State) : Nat :=
  freeNumber (s.proposals.map Proposal.number) Config.proposalCapacity s.lastNumber

/-- The record of a new proposal (R50). -/
def State.newProposal (s : State) (ch : ChannelNo) (l : List Change) : Proposal where
  number := s.newNumber
  stamp := s.nextStamp
  proposer := ch
  role := s.role ch
  changes := l
  required := requiredApprover s.slots l
  state := .awaiting (s.access.lifetime * Config.second)

/-- The creation of a proposal from a draft that passes every check (R50). -/
def createProposal (ch : ChannelNo) (l : List Change) (s : State) : State :=
  State.setDraft
    { s with
      proposals := s.proposals ++ [s.newProposal ch l]
      lastNumber := s.newNumber
      nextStamp := s.nextStamp + 1 } ch none

/-- DRAFT_SUBMIT (R44). -/
def runDraftSubmit (ch : ChannelNo) (s : State) : State × Reply :=
  match s.draft ch with
  | none => (s, .refuse .noDraft)
  | some [] => (s, .refuse .noDraft)
  | some (c :: rest) =>
    match submissionChecks s (s.role ch) (c :: rest) with
    | some refusal => (s, refusal)
    | none =>
      (createProposal ch (c :: rest) s,
        .done ([byteOf s.newNumber, (requiredApprover s.slots (c :: rest)).byte] ++ numBytes s.access.lifetime))

/-! ### The requests -/

def draftBeginRequest : RequestSpec := ⟨0x20, 0, operatorOrEngineer, fun ch _ s => runDraftBegin ch s⟩
def draftSetRequest : RequestSpec := ⟨0x21, 10, operatorOrEngineer, runDraftSet⟩
def draftCreateRequest : RequestSpec := ⟨0x22, 9, operatorOrEngineer, runDraftCreate⟩
def draftRetireRequest : RequestSpec := ⟨0x23, 6, operatorOrEngineer, runDraftRetire⟩
def draftBoundsRequest : RequestSpec := ⟨0x24, 9, operatorOrEngineer, runDraftBounds⟩
def draftToleranceRequest : RequestSpec := ⟨0x25, 2, operatorOrEngineer, runDraftTolerance⟩
def draftPartnerRequest : RequestSpec := ⟨0x26, 2, operatorOrEngineer, runDraftPartner⟩
def draftSubmitRequest : RequestSpec := ⟨0x27, 0, operatorOrEngineer, fun ch _ s => runDraftSubmit ch s⟩
def draftDiscardRequest : RequestSpec := ⟨0x28, 0, operatorOrEngineer, fun ch _ s => runDraftDiscard ch s⟩

/-- DRAFT_BEGIN (R40). -/
def execDraftBegin (ch : ChannelNo) (a : Args) (s : State) : Host.Outcome State Fault Refusal :=
  .next (takeRequest draftBeginRequest ch a s)

/-- DRAFT_SET (R41). -/
def execDraftSet (ch : ChannelNo) (a : Args) (s : State) : Host.Outcome State Fault Refusal :=
  .next (takeRequest draftSetRequest ch a s)

/-- DRAFT_CREATE (R41). -/
def execDraftCreate (ch : ChannelNo) (a : Args) (s : State) : Host.Outcome State Fault Refusal :=
  .next (takeRequest draftCreateRequest ch a s)

/-- DRAFT_RETIRE (R41). -/
def execDraftRetire (ch : ChannelNo) (a : Args) (s : State) : Host.Outcome State Fault Refusal :=
  .next (takeRequest draftRetireRequest ch a s)

/-- DRAFT_BOUNDS (R42). -/
def execDraftBounds (ch : ChannelNo) (a : Args) (s : State) : Host.Outcome State Fault Refusal :=
  .next (takeRequest draftBoundsRequest ch a s)

/-- DRAFT_TOLERANCE (R43). -/
def execDraftTolerance (ch : ChannelNo) (a : Args) (s : State) : Host.Outcome State Fault Refusal :=
  .next (takeRequest draftToleranceRequest ch a s)

/-- DRAFT_PARTNER (R43). -/
def execDraftPartner (ch : ChannelNo) (a : Args) (s : State) : Host.Outcome State Fault Refusal :=
  .next (takeRequest draftPartnerRequest ch a s)

/-- DRAFT_SUBMIT (R44). -/
def execDraftSubmit (ch : ChannelNo) (a : Args) (s : State) : Host.Outcome State Fault Refusal :=
  .next (takeRequest draftSubmitRequest ch a s)

/-- DRAFT_DISCARD (R40). -/
def execDraftDiscard (ch : ChannelNo) (a : Args) (s : State) : Host.Outcome State Fault Refusal :=
  .next (takeRequest draftDiscardRequest ch a s)

end Sys2Proof.Machine
end

