-- ==== Sys2Proof/Machine/Proposals.lean ====
section
/-! DEFINITION. The proposal list: APPROVE, REJECT, WITHDRAW, listing, reading, the lifetime and the expiry (chapters 3 and 4). -/

namespace Sys2Proof.Machine

/-- The open proposal that holds a number. -/
def State.proposal (s : State) (number : Nat) : Option Proposal :=
  s.proposals.find? fun p => p.number == number

/-- The list without the proposal that holds a number (R61). -/
def removeProposal (number : Nat) (s : State) : State :=
  { s with proposals := s.proposals.filter fun p => p.number != number }

/-- A role qualifies as approver (R54). -/
def qualifies (role : Role) (required : Approver) : Bool :=
  role == .quality || (role == .engineer && required == .engineerOrQuality)

/-! ### Approval (R66 to R69) -/

/-- CREATE changes held by the WRITING proposals (R68). -/
def State.writingCreates (s : State) : Nat :=
  ((s.proposals.filter Proposal.isWriting).map fun p => createCount p.changes).sum

/-- The room that approval has (R68). -/
def State.approvalRoom (s : State) : Nat := s.freeSlots - s.writingCreates

/-- Check 6 of approval on change `i` (R67). -/
def checkRelease (s : State) (i : Nat) (c : Change) : Option Reply :=
  if s.releaseBars c then some (.now .releaseClosed [byteOf i]) else none

/-- Checks 3 to 8 of Table 28 (R66 to R68). -/
def approvalChecks (s : State) (ch : ChannelNo) (p : Proposal) : Option Reply :=
  if p.isWriting then some (.refuse .notAwaiting)
  else if !qualifies (s.role ch) p.required then some (.now .denied [(s.role ch).byte, p.required.byte])
  else if ch = p.proposer then some (.refuse .selfApproval)
  else (checkEach (checkRelease s) 0 p.changes).or <|
    if s.degraded then some (.refuse .storeFault)
    else if s.approvalRoom < createCount p.changes then some (.now .tableFull (numBytes s.approvalRoom))
    else none

/-- The proposal of a number WRITING, with its approving channel; its expiry timer is gone (R69). -/
def markWriting (number : Nat) (ch : ChannelNo) (s : State) : State :=
  { s with
    proposals := s.proposals.map fun p => if p.number = number then { p with state := .writing ch } else p }

/-- APPROVE (R66, R69). The number is one byte, so only 0 is out of its range. -/
def runApprove (ch : ChannelNo) (a : Args) (s : State) : State × Reply :=
  let number := (argByte a 0).toNat
  if number = 0 then (s, .refuse .badArgument)
  else
    match s.proposal number with
    | none => (s, .refuse .noProposal)
    | some p =>
      match approvalChecks s ch p with
      | some refusal => (s, refusal)
      | none => (enqueue (.proposal ch number) (markWriting number ch s), .later)

/-! ### Rejection and withdrawal (R58, R59) -/

/-- REJECT (R59). -/
def runReject (ch : ChannelNo) (a : Args) (s : State) : State × Reply :=
  let number := (argByte a 0).toNat
  if number = 0 then (s, .refuse .badArgument)
  else
    match s.proposal number with
    | none => (s, .refuse .noProposal)
    | some p =>
      if p.isWriting then (s, .refuse .notAwaiting)
      else if !qualifies (s.role ch) p.required then (s, .now .denied [(s.role ch).byte, p.required.byte])
      else (removeProposal number s, .done [])

/-- WITHDRAW (R58). -/
def runWithdraw (ch : ChannelNo) (a : Args) (s : State) : State × Reply :=
  let number := (argByte a 0).toNat
  if number = 0 then (s, .refuse .badArgument)
  else
    match s.proposal number with
    | none => (s, .refuse .noProposal)
    | some p =>
      if p.isWriting then (s, .refuse .notAwaiting)
      else if ch ≠ p.proposer ∧ s.role ch ≠ .quality then (s, deniedFor (s.role ch))
      else (removeProposal number s, .done [])

/-! ### Reading the list (R62 to R64) -/

/-- The number, state and required approver of a proposal. -/
def Proposal.summary (p : Proposal) : List Byte := [byteOf p.number, p.state.byte, p.required.byte]

/-- LIST_PROPOSALS (R62). The list is kept oldest first (R51). -/
def runListProposals (ch : ChannelNo) (s : State) : State × Reply :=
  match s.proposals with
  | [] => (s.setCursor ch (.proposals none), .now .listEnd [])
  | p :: rest => (s.setCursor ch (.proposals (some p.stamp)), .done (p.summary ++ [byteOf (rest.length + 1)]))

/-- The oldest open proposal with a stamp later than the last one, or the oldest at all (R63). -/
def State.proposalAfter (s : State) (last : Option Nat) : Option Proposal :=
  s.proposals.find? fun p => match last with | none => true | some n => decide (n < p.stamp)

/-- NEXT_PROPOSAL (R63). -/
def runNextProposal (ch : ChannelNo) (s : State) : State × Reply :=
  match (sel s.channels ch).cursor with
  | .proposals last =>
    match s.proposalAfter last with
    | none => (s, .now .listEnd [])
    | some p => (s.setCursor ch (.proposals (some p.stamp)), .done p.summary)
  | .noCursor => (s, .refuse .noCursor)
  | .entries _ _ _ => (s, .refuse .noCursor)

/-- The time that remains of a proposal's lifetime, in whole seconds rounded up, 0 in WRITING (R56). -/
def ProposalState.remainingSeconds : ProposalState → Nat
  | .awaiting remaining => secondsLeft (some remaining)
  | .writing _ => 0

/-- The approving channel of a proposal, 0 in AWAITING (R64). -/
def ProposalState.approverByte : ProposalState → Byte
  | .awaiting _ => 0
  | .writing ch => holderByte (some ch)

/-- The new value a change carries, 0 for a RETIRE. -/
def Change.newValue : Change → Word
  | .set _ _ v _ _ _ => v
  | .create _ v _ _ _ _ _ => v
  | .retire _ _ => 0

/-- The tolerance a change gives, if it gives one. -/
def Change.tolerance : Change → Option Half
  | .set _ _ _ _ _ t => t
  | .create _ _ _ _ t _ _ => t
  | .retire _ _ => none

/-- The bound fields of a change; UNCHANGED stands for those a RETIRE does not have, whose value is 0
(R64). -/
def Change.bounds : Change → BoundField × BoundField
  | .set _ _ _ low high _ => (low, high)
  | .create _ _ low high _ _ _ => (low, high)
  | .retire _ _ => (.unchanged, .unchanged)

/-- The class a CREATE names, 0 for other kinds (R64). -/
def Change.classByte : Change → Byte
  | .set _ _ _ _ _ _ => 0
  | .create _ _ _ _ _ cls _ => cls.byte
  | .retire _ _ => 0

/-- The parts of READ_PROPOSAL (Table 23, Table 60). -/
def proposalPart (p : Proposal) (c : Change) (part : Nat) : List Byte :=
  c.kind.byte ::
    if part = 0 then
      [p.state.byte, p.required.byte, holderByte (some p.proposer), p.role.byte, p.state.approverByte,
        byteOf p.changes.length] ++ numBytes p.state.remainingSeconds
    else if part = 1 then
      keyBytes c.key ++ halfBytes (c.expected.getD 0) ++ [c.classByte] ++
        numBytes ((c.named.map Fin.val).getD 0)
    else if part = 2 then
      wordBytes c.newValue ++ [bitsByte [c.tolerance.isSome, c.named.isSome]] ++ halfBytes (c.tolerance.getD 0)
    else
      [byteOf (c.bounds.1.selector + 4 * c.bounds.2.selector)] ++ wordBytes c.bounds.1.shown ++
        wordBytes c.bounds.2.shown

/-- READ_PROPOSAL (R64). -/
def answerReadProposal (a : Args) (s : State) : Reply :=
  let number := (argByte a 0).toNat
  let index := (argByte a 1).toNat
  let part := (argByte a 2).toNat
  if number = 0 ∨ 1 < index ∨ 3 < part then .refuse .badArgument
  else
    match s.proposal number with
    | none => .refuse .noProposal
    | some p =>
      match p.changes[index]? with
      | none => .now .listEnd []
      | some c => .done (proposalPart p c part)

/-! ### The lifetime setting (R57) -/

/-- SET_LIFETIME (R57, R160). -/
def runSetLifetime (a : Args) (s : State) : State × Reply :=
  let lifetime := (argHalf a 0).toNat
  if lifetime < 60 ∨ 3600 < lifetime then (s, .refuse .badArgument)
  else (enqueue .moduleRec { s with access := { s.access with lifetime := lifetime } }, .done (numBytes lifetime))

/-! ### The requests -/

def setLifetimeRequest : RequestSpec := ⟨0x09, 2, qualityOnly, fun _ a s => runSetLifetime a s⟩
def approveRequest : RequestSpec := ⟨0x30, 1, engineerOrQuality, runApprove⟩
def rejectRequest : RequestSpec := ⟨0x31, 1, engineerOrQuality, runReject⟩
def withdrawRequest : RequestSpec := ⟨0x32, 1, signedOn, runWithdraw⟩
def listProposalsRequest : RequestSpec := ⟨0x33, 0, anyRole, fun ch _ s => runListProposals ch s⟩
def nextProposalRequest : RequestSpec := ⟨0x34, 0, anyRole, fun ch _ s => runNextProposal ch s⟩
def readProposalRequest : RequestSpec := ⟨0x35, 3, anyRole, fun _ a s => (s, answerReadProposal a s)⟩

/-- SET_LIFETIME (R57). -/
def execSetLifetime (ch : ChannelNo) (a : Args) (s : State) : Host.Outcome State Fault Refusal :=
  .next (takeRequest setLifetimeRequest ch a s)

/-- APPROVE (R66). -/
def execApprove (ch : ChannelNo) (a : Args) (s : State) : Host.Outcome State Fault Refusal :=
  .next (takeRequest approveRequest ch a s)

/-- REJECT (R59). -/
def execReject (ch : ChannelNo) (a : Args) (s : State) : Host.Outcome State Fault Refusal :=
  .next (takeRequest rejectRequest ch a s)

/-- WITHDRAW (R58). -/
def execWithdraw (ch : ChannelNo) (a : Args) (s : State) : Host.Outcome State Fault Refusal :=
  .next (takeRequest withdrawRequest ch a s)

/-- LIST_PROPOSALS (R62). -/
def execListProposals (ch : ChannelNo) (a : Args) (s : State) : Host.Outcome State Fault Refusal :=
  .next (takeRequest listProposalsRequest ch a s)

/-- NEXT_PROPOSAL (R63). -/
def execNextProposal (ch : ChannelNo) (a : Args) (s : State) : Host.Outcome State Fault Refusal :=
  .next (takeRequest nextProposalRequest ch a s)

/-- READ_PROPOSAL (R64). -/
def execReadProposal (ch : ChannelNo) (a : Args) (s : State) : Host.Outcome State Fault Refusal :=
  .next (takeRequest readProposalRequest ch a s)

/-- The expiry timer of a proposal: running in AWAITING alone (R56, R69). -/
def ProposalState.timer : ProposalState → Timer
  | .awaiting remaining => some remaining
  | .writing _ => none

/-- PROPOSAL_EXPIRY: an AWAITING proposal whose timer is due is removed (R56, R60). -/
def execProposalExpiry (number : Nat) (s : State) : Host.Outcome State Fault Refusal :=
  .next (match s.proposal number with
    | none => s
    | some p => if timerDue p.state.timer then settle s (removeProposal number s) else s)

end Sys2Proof.Machine
end

