-- ==== Sys2Proof/Machine/Access.lean ====
section
/-! DEFINITION. The access unit: SIGN_ON, SIGN_OFF, SET_ROLE_CODE, the lockout, and the fixed-class release (chapter 8). -/

namespace Sys2Proof.Machine

/-! ### Role codes (R158, R159) -/

/-- The code of a role: NONE has none; absent is UNSET (R158). -/
def ModuleRecord.code (m : ModuleRecord) : Role → Option Nat
  | .noRole => none
  | .operator => m.operator
  | .engineer => m.engineer
  | .quality => m.quality

/-- The record with the code of a role replaced (R159). -/
def ModuleRecord.setCode (m : ModuleRecord) (role : Role) (code : Option Nat) : ModuleRecord :=
  match role with
  | .noRole => m
  | .operator => { m with operator := code }
  | .engineer => { m with engineer := code }
  | .quality => { m with quality := code }

/-- The code a SIGN_ON is compared with: UNSET accepts 000000 for QUALITY and nothing for the others (R158). -/
def ModuleRecord.accepts (m : ModuleRecord) (role : Role) (code : Nat) : Bool :=
  match m.code role with
  | some n => code == n
  | none => role == .quality && code == 0

/-! ### Signing on and off (R161 to R164) -/

/-- The channel after a successful SIGN_ON (R161). -/
def Channel.bind (c : Channel) (role : Role) : Channel := { c with role := role, wrongCodes := 0 }

/-- The channel after a wrong code; the fifth starts the lockout (R162). -/
def Channel.wrongCode (c : Channel) : Channel :=
  { c with
    wrongCodes := c.wrongCodes + 1
    lockout := if c.wrongCodes + 1 < Config.wrongCodeLimit then c.lockout else some Config.lockoutTime }

/-- SIGN_ON (R161, R162). -/
def runSignOn (ch : ChannelNo) (a : Args) (s : State) : State × Reply :=
  let c := sel s.channels ch
  let code := (argWord a 1).toNat
  match roleOf (argByte a 0).toNat with
  | none => (s, .refuse .badArgument)
  | some role =>
    if Config.largestCode < code then (s, .refuse .badArgument)
    else if c.lockout.isSome then (s, .now .lockedOut [byteOf (secondsShown c.lockout)])
    else if s.access.accepts role code then (s.setChannel ch (c.bind role), .done [role.byte, c.role.byte])
    else
      (s.setChannel ch c.wrongCode,
        .now .wrongCode [byteOf (c.wrongCodes + 1),
          byteOf (if c.wrongCodes + 1 < Config.wrongCodeLimit then 0 else Config.lockoutTime / Config.second)])

/-- SIGN_OFF (R164). -/
def runSignOff (ch : ChannelNo) (s : State) : State × Reply :=
  (s.onChannel ch fun c => { c with role := .noRole, draft := none }, .done [(s.role ch).byte])

/-- The code of a SET_ROLE_CODE: 0xFFFFFFFF stands for UNSET, a code above 999999 is out of range (R191). -/
def codeArg (w : Word) : Option (Option Nat) :=
  if w = 0xFFFFFFFF then some none
  else if w.toNat ≤ Config.largestCode then some (some w.toNat)
  else none

/-- SET_ROLE_CODE (R159, R160). -/
def runSetRoleCode (a : Args) (s : State) : State × Reply :=
  match roleOf (argByte a 0).toNat, codeArg (argWord a 1) with
  | some role, some code =>
    (enqueue .moduleRec { s with access := s.access.setCode role code },
      .done [role.byte, byteOf code.isSome.toNat])
  | _, _ => (s, .refuse .badArgument)

/-! ### The fixed-class release (R166, R167) -/

/-- OPEN_RELEASE (R166). -/
def runOpenRelease (a : Args) (s : State) : State × Reply :=
  let duration := (argHalf a 0).toNat
  if duration < 60 ∨ 900 < duration then (s, .refuse .badArgument)
  else
    ({ s with release := some (duration * Config.second) },
      .done (byteOf s.release.isSome.toNat :: numBytes duration))

/-- CLOSE_RELEASE (R167). -/
def runCloseRelease (s : State) : State × Reply :=
  ({ s with release := none }, .done [byteOf s.release.isSome.toNat])

/-! ### The requests -/

def signOnRequest : RequestSpec := ⟨0x04, 5, anyRole, runSignOn⟩
def signOffRequest : RequestSpec := ⟨0x05, 0, anyRole, fun ch _ s => runSignOff ch s⟩
def setRoleCodeRequest : RequestSpec := ⟨0x06, 5, qualityOnly, fun _ a s => runSetRoleCode a s⟩
def openReleaseRequest : RequestSpec := ⟨0x07, 2, qualityOnly, fun _ a s => runOpenRelease a s⟩
def closeReleaseRequest : RequestSpec := ⟨0x08, 0, qualityOnly, fun _ _ s => runCloseRelease s⟩

/-- SIGN_ON (R161). -/
def execSignOn (ch : ChannelNo) (a : Args) (s : State) : Host.Outcome State Fault Refusal :=
  .next (takeRequest signOnRequest ch a s)

/-- SIGN_OFF (R164). -/
def execSignOff (ch : ChannelNo) (a : Args) (s : State) : Host.Outcome State Fault Refusal :=
  .next (takeRequest signOffRequest ch a s)

/-- SET_ROLE_CODE (R159). -/
def execSetRoleCode (ch : ChannelNo) (a : Args) (s : State) : Host.Outcome State Fault Refusal :=
  .next (takeRequest setRoleCodeRequest ch a s)

/-- OPEN_RELEASE (R166). -/
def execOpenRelease (ch : ChannelNo) (a : Args) (s : State) : Host.Outcome State Fault Refusal :=
  .next (takeRequest openReleaseRequest ch a s)

/-- CLOSE_RELEASE (R167). -/
def execCloseRelease (ch : ChannelNo) (a : Args) (s : State) : Host.Outcome State Fault Refusal :=
  .next (takeRequest closeReleaseRequest ch a s)

/-- LOCKOUT_EXPIRY: a lockout that is due ends and the count becomes 0 (R163). -/
def execLockoutExpiry (ch : ChannelNo) (s : State) : Host.Outcome State Fault Refusal :=
  .next (if timerDue (sel s.channels ch).lockout then
    s.onChannel ch fun c => { c with wrongCodes := 0, lockout := none }
  else s)

/-- RELEASE_EXPIRY: an open release whose timer is due closes; where an OPEN_RELEASE has started the timer
again, or a CLOSE_RELEASE has discarded it, no expiry occurs (R167). -/
def execReleaseExpiry (s : State) : Host.Outcome State Fault Refusal :=
  .next (if timerDue s.release then settle s { s with release := none } else s)

end Sys2Proof.Machine
end

