-- ==== Sys2Proof/Machine/Outputs.lean ====
section
/-! DEFINITION. The permissive output stage: SET_OUTPUT_MODE, the bypass, readback, OUTPUT_FAULT, trips and the field supply (chapter 7, R193). -/

namespace Sys2Proof.Machine

/-- The state with the output of section `sec` replaced. -/
def State.setOutput (s : State) (sec : SectionNo) (o : Output) : State :=
  { s with outputs := upd s.outputs sec o }

/-- The mode a SET_OUTPUT_MODE asks for, and the duration it applies (R147): for BYPASS a duration of
10-1800 s; for AUTO and FORCED_OFF the duration is disregarded. -/
def modeArg (mode duration : Nat) : Option (OutputMode × Nat) :=
  if mode = 0 then some (.auto, 0)
  else if mode = 1 then some (.forcedOff, 0)
  else if mode = 2 ∧ 10 ≤ duration ∧ duration ≤ 1800 then some (.bypass (duration * Config.second), duration)
  else none

/-- The mode is BYPASS. -/
def OutputMode.isBypass : OutputMode → Bool
  | .auto => false
  | .forcedOff => false
  | .bypass _ => true

/-- SET_OUTPUT_MODE (R147). -/
def runSetOutputMode (ch : ChannelNo) (a : Args) (s : State) : State × Reply :=
  match sectionArg a, modeArg (argByte a 1).toNat (argHalf a 2).toNat with
  | some sec, some (mode, applied) =>
    if mode.isBypass && s.role ch != .engineer then (s, deniedFor (s.role ch))
    else
      let o := sel s.outputs sec
      let t := s.setOutput sec { o with mode := mode }
      (t, .done ([o.mode.byte, mode.byte, byteOf (t.commandFormed sec).toNat] ++ numBytes applied))
  | _, _ => (s, .refuse .badArgument)

def setOutputModeRequest : RequestSpec := ⟨0x54, 4, signedOn, runSetOutputMode⟩

/-- SET_OUTPUT_MODE (R147). -/
def execSetOutputMode (ch : ChannelNo) (a : Args) (s : State) : Host.Outcome State Fault Refusal :=
  .next (takeRequest setOutputModeRequest ch a s)

/-- An output whose BYPASS has ended, by its expiry or by link loss (R148, R153). -/
def Output.endBypass (o : Output) : Output := if o.mode.isBypass then { o with mode := .auto } else o

/-- The bypass timer of a mode: running in BYPASS alone (R148). -/
def OutputMode.timer : OutputMode → Timer
  | .auto => none
  | .forcedOff => none
  | .bypass remaining => some remaining

/-- BYPASS_EXPIRY: an output whose bypass timer is due returns to AUTO (R148); where a SET_OUTPUT_MODE was
taken first its mode stands, and no expiry occurs (R149). -/
def execBypassExpiry (sec : SectionNo) (s : State) : Host.Outcome State Fault Refusal :=
  .next (if timerDue (sel s.outputs sec).mode.timer then
    settle s (s.setOutput sec { sel s.outputs sec with mode := .auto })
  else s)

/-- The output with its readback taken from a level that has stood at its terminal (R150, R193). -/
def Output.read (o : Output) : TerminalLevel → Output
  | .on => Output.reform { o with readback := true }
  | .off => Output.reform { o with readback := false }
  | .between => o

/-- READBACK_CHANGE (R150): the stage reads its terminals while it has its supply, during a scan (log entry 12)
and while the reset line is held too (R150 excepts neither; DESIGN CHOICE, log entry 36). -/
def execReadbackChange (sec : SectionNo) (level : TerminalLevel) (s : State) :
    Host.Outcome State Fault Refusal :=
  .next (if s.phase = .off then s else settle s (s.setOutput sec ((sel s.outputs sec).read level)))

/-- OUTPUT_FAULT_DELAY_EXPIRY: the 50 ms after a change to ON have run whole, and OUTPUT_FAULT is formed again
(R150). -/
def execOutputFaultDelayExpiry (sec : SectionNo) (s : State) : Host.Outcome State Fault Refusal :=
  .next (if (sel s.outputs sec).faultDelay = some 0 then
    settle s (s.setOutput sec (Output.reform { sel s.outputs sec with faultDelay := none }))
  else s)

/-- FIELD_SUPPLY_LOSS: the supply is taken as missing (R193). -/
def execFieldSupplyLoss (s : State) : Host.Outcome State Fault Refusal := .next { s with fieldPresent := false }

/-- FIELD_SUPPLY_RETURN: every output commanded ON is driven again (R193). -/
def execFieldSupplyReturn (s : State) : Host.Outcome State Fault Refusal := .next { s with fieldPresent := true }

/-- OUTPUT_TRIP: an output whose switch is closed trips (R193). -/
def execOutputTrip (sec : SectionNo) (s : State) : Host.Outcome State Fault Refusal :=
  .next (if s.driven sec then s.setOutput sec { sel s.outputs sec with tripped := true } else s)

/-- TRIP_RETRY: a tripped output still commanded ON remains on where the current stayed within 0.6 A (R193). -/
def execTripRetry (sec : SectionNo) (within : Bool) (s : State) : Host.Outcome State Fault Refusal :=
  let o := sel s.outputs sec
  .next (if o.commanded && o.tripped && within then s.setOutput sec { o with tripped := false } else s)

end Sys2Proof.Machine
end

