-- ==== Sys2Proof/Machine/Channels.lean ====
section
/-! DEFINITION. The channel interface: MODULE_INFO, READ_EVENTS, SET_EVENT_MASK, the exchange of the images, channel resets and link loss (chapter 9). -/

namespace Sys2Proof.Machine

/-! ### MODULE_INFO and the event flags (R185, R186, R188) -/

/-- The answer of MODULE_INFO (R188, Table 60). -/
def infoReply (part : Nat) (s : State) : Reply :=
  if part = 0 then
    .done ([infoFlags s] ++ numBytes s.startFaults ++ numBytes s.entriesInUse ++ numBytes s.damagedEntries ++
      [byteOf s.proposals.length])
  else
    .done ([infoFlags s, byteOf s.queue.length, byteOf s.writer.isSome.toNat] ++
      numBytes (secondsShown s.release))

/-- A RECOVERED link becomes PRESENT (R181). -/
def LinkState.acknowledged : LinkState → LinkState
  | .present => .present
  | .lost => .lost
  | .recovered => .present

/-- MODULE_INFO (R188). -/
def runModuleInfo (a : Args) (s : State) : State × Reply :=
  let part := (argByte a 0).toNat
  if 1 < part then (s, .refuse .badArgument)
  else ({ s with link := s.link.acknowledged }, infoReply part s)

/-- READ_EVENTS (R186). -/
def runReadEvents (ch : ChannelNo) (s : State) : State × Reply :=
  (s.onChannel ch fun c => { c with flags := .empty },
    .done [(sel s.channels ch).flags.byte, (sel s.channels ch).mask.byte])

/-- SET_EVENT_MASK (R185). -/
def runSetEventMask (ch : ChannelNo) (a : Args) (s : State) : State × Reply :=
  match EventSet.ofByte (argByte a 0) with
  | none => (s, .refuse .badArgument)
  | some m =>
    (s.onChannel ch fun c => { c with mask := m },
      .done [(sel s.channels ch).mask.byte, (sel s.channels ch).flags.byte])

def moduleInfoRequest : RequestSpec := ⟨0x01, 1, anyRole, fun _ a s => runModuleInfo a s⟩
def readEventsRequest : RequestSpec := ⟨0x02, 0, anyRole, fun ch _ s => runReadEvents ch s⟩
def setEventMaskRequest : RequestSpec := ⟨0x03, 1, anyRole, runSetEventMask⟩

/-- MODULE_INFO (R188). -/
def execModuleInfo (ch : ChannelNo) (a : Args) (s : State) : Host.Outcome State Fault Refusal :=
  .next (takeRequest moduleInfoRequest ch a s)

/-- READ_EVENTS (R186). -/
def execReadEvents (ch : ChannelNo) (a : Args) (s : State) : Host.Outcome State Fault Refusal :=
  .next (takeRequest readEventsRequest ch a s)

/-- SET_EVENT_MASK (R185). -/
def execSetEventMask (ch : ChannelNo) (a : Args) (s : State) : Host.Outcome State Fault Refusal :=
  .next (takeRequest setEventMaskRequest ch a s)

/-! ### The request codes (Table 59) -/

/-- The request of a code; none for a code that Table 59 does not list. -/
def requestOf (code : Nat) : Option RequestSpec :=
  match code with
  | 0x01 => some moduleInfoRequest
  | 0x02 => some readEventsRequest
  | 0x03 => some setEventMaskRequest
  | 0x04 => some signOnRequest
  | 0x05 => some signOffRequest
  | 0x06 => some setRoleCodeRequest
  | 0x07 => some openReleaseRequest
  | 0x08 => some closeReleaseRequest
  | 0x09 => some setLifetimeRequest
  | 0x10 => some lookupRequest
  | 0x11 => some lookupExactRequest
  | 0x12 => some readLimitsRequest
  | 0x13 => some checkValueRequest
  | 0x14 => some listEntriesRequest
  | 0x15 => some nextEntryRequest
  | 0x16 => some readDigestRequest
  | 0x20 => some draftBeginRequest
  | 0x21 => some draftSetRequest
  | 0x22 => some draftCreateRequest
  | 0x23 => some draftRetireRequest
  | 0x24 => some draftBoundsRequest
  | 0x25 => some draftToleranceRequest
  | 0x26 => some draftPartnerRequest
  | 0x27 => some draftSubmitRequest
  | 0x28 => some draftDiscardRequest
  | 0x30 => some approveRequest
  | 0x31 => some rejectRequest
  | 0x32 => some withdrawRequest
  | 0x33 => some listProposalsRequest
  | 0x34 => some nextProposalRequest
  | 0x35 => some readProposalRequest
  | 0x40 => some enrollRequest
  | 0x41 => some unenrollRequest
  | 0x42 => some reportValueRequest
  | 0x43 => some reportDigestRequest
  | 0x44 => some holdRequest
  | 0x45 => some releaseHoldRequest
  | 0x46 => some readStationRequest
  | 0x47 => some readDivergenceRequest
  | 0x50 => some changeoverRequest
  | 0x51 => some abortChangeoverRequest
  | 0x52 => some setSectionRequest
  | 0x53 => some readSectionRequest
  | 0x54 => some setOutputModeRequest
  | _ => none

/-- A request as an image brings it: by its code (R174). -/
def takeCode (ch : ChannelNo) (code : Byte) (a : Args) (s : State) : State :=
  match requestOf code.toNat with
  | some r => takeRequest r ch a s
  | none => takeUnlisted ch code a s

/-- UNKNOWN_REQUEST (R174): a code that Table 59 lists is no unknown one, and is taken as its request. -/
def execUnknownRequest (ch : ChannelNo) (code : Byte) (a : Args) (s : State) :
    Host.Outcome State Fault Refusal :=
  .next (takeCode ch code a s)

/-! ### What an image's control byte does to one channel (R173, R176 to R179) -/

/-- DONE cleared, the channel IDLE and armed (R176). -/
def Channel.acknowledge (c : Channel) : Channel :=
  match c.handshake with
  | .answered => { c with handshake := .idle, armed := true }
  | .idle => c
  | .working _ _ => c

/-- Answer wanted becomes no; the channel stays WORKING (R177). -/
def Channel.abandon (c : Channel) : Channel :=
  match c.handshake with
  | .working _ req => { c with handshake := .working false req }
  | .idle => c
  | .answered => c

/-- The handshake as the onset of a channel reset or of link loss leaves it (R178, R179). -/
def Handshake.cut : Handshake → Handshake
  | .idle => .idle
  | .working _ req => .working false req
  | .answered => .idle

/-- What the onset of a channel reset and of link loss have in common: role, draft and cursor NONE, flags
and mask cleared, the answer area zeroed (R178, R180). -/
def Channel.cleared (c : Channel) : Channel :=
  { c with
    handshake := c.handshake.cut
    answer := .zero
    flags := .empty
    mask := .empty
    role := .noRole
    draft := none
    cursor := .noCursor }

/-- The onset of a channel reset (R178). -/
def Channel.startReset (c : Channel) : Channel :=
  if c.resetHeld then c else { c.cleared with resetHeld := true, armed := false }

/-- The channel is IDLE. -/
def Channel.isIdle (c : Channel) : Bool := c.handshake == .idle

/-- The end of a channel reset, at an image whose REQ is `req` (R178). -/
def Channel.endReset (c : Channel) (req : Bool) : Channel :=
  if c.resetHeld then { c with resetHeld := false, armed := c.armed || (!req && c.isIdle) } else c

/-- REQ and RESET clear: an IDLE channel is armed, an ANSWERED one acknowledged, a WORKING one abandoned
(R173, R176, R177). -/
def Channel.reqClear (c : Channel) : Channel :=
  match c.handshake with
  | .idle => { c with armed := true }
  | .answered => c.acknowledge
  | .working _ _ => c.abandon

/-- ANSWER_ACKNOWLEDGE (R176). A channel whose reset is held is not ANSWERED, and sees the end of its reset
instead. -/
def execAnswerAcknowledge (ch : ChannelNo) (s : State) : Host.Outcome State Fault Refusal :=
  .next (if s.exchanging && s.link != .lost && !(sel s.channels ch).resetHeld then
    s.onChannel ch Channel.acknowledge
  else s)

/-- REQUEST_ABANDONMENT (R177). -/
def execRequestAbandonment (ch : ChannelNo) (s : State) : Host.Outcome State Fault Refusal :=
  .next (if s.exchanging && s.link != .lost && !(sel s.channels ch).resetHeld then
    s.onChannel ch Channel.abandon
  else s)

/-- CHANNEL_RESET (R178, R179). -/
def execChannelReset (ch : ChannelNo) (s : State) : Host.Outcome State Fault Refusal :=
  .next (if s.exchanging && s.link != .lost then s.onChannel ch Channel.startReset else s)

/-- CHANNEL_RESET_END (R178). -/
def execChannelResetEnd (ch : ChannelNo) (req : Bool) (s : State) : Host.Outcome State Fault Refusal :=
  .next (if s.exchanging && s.link != .lost then s.onChannel ch fun c => c.endReset req else s)

/-! ### The exchange of the images (R180, R181) -/

/-- Byte `n` of the output image. -/
def imageByte (image : OutputImage) (n : Nat) : Byte := if h : n < 48 then image[n] else 0

/-- The control byte of a channel's area (Table 56). -/
def controlByte (image : OutputImage) (ch : ChannelNo) : Byte := imageByte image (12 * ch.val)

/-- The request code of a channel's area (Table 56). -/
def requestCode (image : OutputImage) (ch : ChannelNo) : Byte := imageByte image (12 * ch.val + 1)

/-- The argument bytes of a channel's area (Table 56). -/
def requestArgs (image : OutputImage) (ch : ChannelNo) : Args :=
  Vector.ofFn fun i => imageByte image (12 * ch.val + 2 + i.val)

/-- One channel's part of an exchange: REQ is bit 0 of its control byte, RESET bit 1, the others are
disregarded (R173, R176 to R178, R191, Table 58). -/
def takeControl (image : OutputImage) (s : State) (ch : ChannelNo) : State :=
  let req := (controlByte image ch).getLsbD 0
  let reset := (controlByte image ch).getLsbD 1
  if reset then s.onChannel ch Channel.startReset
  else if (sel s.channels ch).resetHeld then s.onChannel ch fun c => c.endReset req
  else if req then takeCode ch (requestCode image ch) (requestArgs image ch) s
  else s.onChannel ch Channel.reqClear

/-- A LOST link becomes RECOVERED at an exchange (R181). -/
def LinkState.exchanged : LinkState → LinkState
  | .present => .present
  | .lost => .recovered
  | .recovered => .recovered

/-- What an exchange does before the control bytes are taken: link loss ends, the link-loss timer starts
again (R180, R181), and the input image is formed (R172, R187; log entry 3). -/
def beginExchange (s : State) : State :=
  let t := { s with link := s.link.exchanged, linkTimer := some Config.linkLossTime }
  { t with inputImage := formImage t }

/-- IMAGE_EXCHANGE: the control bytes are taken channel by channel, 1 to 4 (R181; log entry 2). No image is
exchanged without logic supply or while the reset line is held (R194). -/
def execImageExchange (image : OutputImage) (s : State) : Host.Outcome State Fault Refusal :=
  .next (if s.exchanging then (List.finRange 4).foldl (takeControl image) (beginExchange s) else s)

/-! ### Link loss (R180) -/

/-- A channel at the onset of link loss: as by a channel reset, but reset held stays as it was, and a channel
that is then IDLE is armed unless its reset is held (R180, R190). -/
def Channel.loseLink (c : Channel) : Channel :=
  { c.cleared with armed := c.cleared.isIdle && !c.resetHeld }

/-- The onset of link loss on the channels, the outputs and the link record (R180, R153). -/
def loseLink (s : State) : State :=
  { s with
    channels := each s.channels fun _ c => c.loseLink
    outputs := each s.outputs fun _ o => o.endBypass
    link := .lost
    linkTimer := none }

/-- LINK_LOSS: the link-loss timer is due and expires; an exchange taken first has started it again (R180). -/
def execLinkLoss (s : State) : Host.Outcome State Fault Refusal :=
  .next (if s.exchanging && timerDue s.linkTimer then settle s (loseLink s) else s)

end Sys2Proof.Machine
end

