-- ==== Sys2Proof/Machine/Store.lean ====
section
/-! DEFINITION. The completions of the store writer: RECORD_WRITE_COMPLETION, SLOT_WRITE_COMPLETION and PROPOSAL_ITEM_COMPLETION (sections 4.4 to 4.6). -/

namespace Sys2Proof.Machine

/-! ### Record items (R78) -/

/-- What a record write leaves in its slot. -/
def recordLeft : RecordOutcome → Left
  | .verified => .new
  | .failed l => l

/-- The read-back disagreed. -/
def recordFailed : RecordOutcome → Bool
  | .verified => false
  | .failed _ => true

/-- The job is a record item. -/
def Job.isRecord : Job → Bool
  | .moduleRec _ => true
  | .sect _ _ => true
  | .station _ _ => true
  | .proposal _ _ _ _ => false

/-- A record write ends: its slot holds what it left, a failure makes the store DEGRADED, and the writer is
free (R78, R85). -/
def endRecord (o : RecordOutcome) (j : Job) (s : State) : State :=
  { s with
    array := leaveRecord j (recordLeft o) s.array
    writer := none
    degraded := s.degraded || recordFailed o }

/-- RECORD_WRITE_COMPLETION: the item being written is a record item and ends; the writer takes its next item
(R78, R77). -/
def execRecordWriteCompletion (o : RecordOutcome) (s : State) : Host.Outcome State Fault Refusal :=
  .next (match s.writer with
    | none => s
    | some j => if j.isRecord then takeItem (settle s (endRecord o j s)) else s)

/-! ### Slot writes of a proposal item (R80, R81) -/

/-- SLOT_WRITE_COMPLETION: a slot write of a proposal item ends and another one follows; its result is kept
for the completion (R81). -/
def execSlotWriteCompletion (o : SlotOutcome) (s : State) : Host.Outcome State Fault Refusal :=
  .next (match s.writer with
    | some (.proposal ch number plans results) =>
      if results.length + 1 < plans.length then
        match plans[results.length]? with
        | none => s
        | some p =>
          { s with
            array := (writeSlotPlan p o s.array).1
            writer := some (.proposal ch number plans (results ++ [(writeSlotPlan p o s.array).2])) }
      else s
    | some (.moduleRec _) => s
    | some (.sect _ _) => s
    | some (.station _ _) => s
    | none => s)

/-! ### The completion of a proposal item (R82) -/

/-- A slot write and its result; `true` is VERIFIED. -/
abbrev SlotResult := SlotPlan × Bool

/-- The two slot writes are of a partner pair (R7). -/
def SlotPlan.mates (p q : SlotPlan) : Bool :=
  p.key.station == q.key.station && p.key.format == q.key.format &&
    p.partner == some q.key.param && q.partner == some p.key.param

/-- The other slot of the item is the partner's, and failed (R10). -/
def mateFailed (all : List SlotResult) (p : SlotPlan) : Bool := all.any fun d => d.1.mates p && !d.2

/-- The entry a slot holds in working form after its result: DAMAGED where the body is absent (R9). -/
def SlotPlan.entry (p : SlotPlan) (body : Option Body) : Entry := ⟨p.key, p.cls, p.partner, body⟩

/-- The slot, or its partner's in the item, was freed by a RETIRE whose pair stayed in the table (R10). -/
def pairFreed (freed : List Nat) (all : List SlotResult) (p : SlotPlan) : Bool :=
  freed.contains p.slot || all.any fun d => d.1.mates p && freed.contains d.1.slot

/-- The results as the table applies them: a SET of a pair one of whose slots was freed leaves the pair DAMAGED,
the entry whose own slot verified too (R10, last paragraph; log entry 30). -/
def tableResults (freed : List Nat) (all : List SlotResult) : List SlotResult :=
  all.map fun d => (d.1, d.2 && !(d.1.kind == .set && pairFreed freed all d.1))

/-- One slot result applied to the table (R9); a verified RETIRE whose partner failed leaves its entry
DAMAGED (R10). -/
def applyResult (all : List SlotResult) (m : SlotMap Entry) (d : SlotResult) : SlotMap Entry :=
  match d.1.kind with
  | .retire => if d.2 && !mateFailed all d.1 then slotDrop m d.1.slot else slotPut m d.1.slot (d.1.entry none)
  | .set => slotPut m d.1.slot (d.1.entry (if d.2 then d.1.body else none))
  | .create => slotPut m d.1.slot (d.1.entry (if d.2 then d.1.body else none))

/-- The table after a completion, in the order of the changes (R9, R10). -/
def applyResults (all : List SlotResult) (m : SlotMap Entry) : SlotMap Entry := all.foldl (applyResult all) m

/-- The freed slots that the table `m`, left by a completion, still holds: those freed before, and those whose
RETIRE verified (R10). -/
def freedAfter (freed : List Nat) (all : List SlotResult) (m : SlotMap Entry) : List Nat :=
  (m.map Prod.fst).filter fun n =>
    freed.contains n || all.any fun d => d.1.slot == n && d.1.kind == .retire && d.2

/-- Some slot of the item failed. -/
def anyFailed (all : List SlotResult) : Bool := all.any fun d => !d.2

/-- Effects 1 to 3 of R82: the table, the store condition, the digests, the judgement of the stations. -/
def applyCompletion (all : List SlotResult) (s : State) : State :=
  let keys := all.map fun d => d.1.key
  let m := applyResults (tableResults s.freed all) s.slots
  rejudge s.slots keys
    { s with
      slots := m
      freed := freedAfter s.freed all m
      degraded := s.degraded || anyFailed all
      digests := correctDigests s.slots m (targetsOf keys) s.digests }

/-- Numeric value of the slot result of change `i`; 0 for no such change (Table 64). -/
def slotResultByte (all : List SlotResult) (i : Nat) : Byte :=
  match all[i]? with
  | none => 0
  | some d => if d.2 then 1 else 2

/-- The new revision of change `i`: that of a verified SET or CREATE, 0 otherwise (R70). -/
def newRevision (all : List SlotResult) (i : Nat) : Half :=
  match all[i]? with
  | none => 0
  | some d => if d.2 then (d.1.body.map Body.revision).getD 0 else 0

/-- The answer code of an accepted APPROVE (R70). -/
def completionCode (all : List SlotResult) : AnswerCode := if anyFailed all then .writeFault else .done

/-- The result bytes of the answer to an accepted APPROVE (R70, Table 60). -/
def completionResult (number : Nat) (all : List SlotResult) : List Byte :=
  [byteOf number] ++ (if anyFailed all then [slotResultByte all 0, slotResultByte all 1] else []) ++
    halfBytes (newRevision all 0) ++ halfBytes (newRevision all 1)

/-- The completion of a proposal item, in the order of R82: the table, the digests, the stations, the
proposal's removal, the answer. The writer is then free and takes its next item (R77). -/
def completeItem (ch : ChannelNo) (number : Nat) (all : List SlotResult) (s : State) : State :=
  takeItem <| deliver ch (completionCode all) (completionResult number all) <|
    settle s { removeProposal number (applyCompletion all s) with writer := none }

/-- The last slot of a proposal item written and read back; then its completion, before which no request
is taken (R81, R82). -/
def endItem (ch : ChannelNo) (number : Nat) (plans : List SlotPlan) (results : List Bool) (p : SlotPlan)
    (o : SlotOutcome) (s : State) : State :=
  completeItem ch number (plans.zip (results ++ [(writeSlotPlan p o s.array).2]))
    { s with array := (writeSlotPlan p o s.array).1 }

/-- PROPOSAL_ITEM_COMPLETION: the last slot write of the item being written ends (R81, R82). -/
def execProposalItemCompletion (o : SlotOutcome) (s : State) : Host.Outcome State Fault Refusal :=
  .next (match s.writer with
    | some (.proposal ch number plans results) =>
      if results.length + 1 = plans.length then
        match plans[results.length]? with
        | none => s
        | some p => endItem ch number plans results p o s
      else s
    | some (.moduleRec _) => s
    | some (.sect _ _) => s
    | some (.station _ _) => s
    | none => s)

end Sys2Proof.Machine
end

