-- ==== Sys2Proof/Machine/Resets.lean ====
section
/-! DEFINITION. Module resets and the start-up scan: POWER_ON, BUS_RESET, BUS_RESET_LINE_ASSERTED, LOGIC_SUPPLY_LOSS and START_UP_SCAN_END (section 4.7, R87 to R93, R194). -/

namespace Sys2Proof.Machine

/-! ### The reading of the entry slots (R88) -/

/-- The body of a slot where it reads as valid: its check agrees and its fields are in order (R72). -/
def NvSlot.validBody (c : NvSlot) : Option Body := c.body.filter Body.ok

/-- What the reading of the slots has found: the working form, and how many slots are start faults. -/
structure SlotReading where
  slots : SlotMap Entry
  faults : Nat
deriving DecidableEq, Repr

/-- One slot read (R88): a free header gives FREE; a failed header, or one whose key a lower slot holds,
FREE and a fault; an entry header ACTIVE, or DAMAGED and a fault. -/
def readSlot (r : SlotReading) (e : Nat × NvSlot) : SlotReading :=
  match e.2.header with
  | .free => r
  | .failed => { r with faults := r.faults + 1 }
  | .entry k cls q =>
    if (entryAt r.slots k).isSome then { r with faults := r.faults + 1 }
    else
      ⟨r.slots ++ [(e.1, ⟨k, cls, q, e.2.validBody⟩)],
        if e.2.validBody.isNone then r.faults + 1 else r.faults⟩

/-- Every entry slot read, 0 to 2047 (R88); a slot that is not listed is free. -/
def readSlots (a : NvArray) : SlotReading := a.slots.foldl readSlot ⟨[], 0⟩

/-! ### The partner pass (R89) -/

/-- The key of an entry's partner. -/
def Entry.partnerKey (e : Entry) : Option Key := e.partner.map fun q => { e.key with param := q }

/-- The entry names a partner that is absent or does not name it back (R89, step 1). -/
def orphaned (m : SlotMap Entry) (e : Entry) : Bool :=
  match e.partnerKey with
  | none => false
  | some k =>
    match entryAt m k with
    | none => true
    | some d => d.partner != some e.key.param

/-- The entry is one of a pair whose two entries are ACTIVE with unequal revisions (R89, step 2). -/
def unequal (m : SlotMap Entry) (e : Entry) : Bool :=
  match e.body, (e.partnerKey.bind (entryAt m)).bind Entry.body with
  | some b, some b' => b.revision != b'.revision
  | _, _ => false

/-- The working form with its orphans freed (R89, step 1). -/
def freeOrphans (m : SlotMap Entry) : SlotMap Entry := m.filter fun e => !orphaned m e.2

/-- The working form with both entries of every unequal pair DAMAGED (R89, step 2). -/
def damageUnequal (m : SlotMap Entry) : SlotMap Entry :=
  m.map fun e => if unequal m e.2 then (e.1, { e.2 with body := none }) else e

/-- The partner pass, in its two steps (R89). -/
def partnerPass (m : SlotMap Entry) : SlotMap Entry := damageUnequal (freeOrphans m)

/-- The slots the partner pass counts: the orphans not counted already as DAMAGED, and the entries damaged in
step 2 (R89, R91). -/
def passFaults (m : SlotMap Entry) : Nat :=
  (m.filter fun e => orphaned m e.2 && e.2.body.isSome).length +
    ((freeOrphans m).filter fun e => unequal (freeOrphans m) e.2).length

/-! ### The record slots (R90) -/

/-- The content loaded from a record slot: as found, or the delivery content (R90). -/
def NvRecord.load {α : Type} (r : NvRecord α) (delivery : α) : α :=
  match r with
  | .valid c => c
  | .failed => delivery

/-- 1 for a record that reads as failed. -/
def NvRecord.fault {α : Type} (r : NvRecord α) : Nat :=
  match r with
  | .valid _ => 0
  | .failed => 1

/-- Records replaced by the scan (R90). -/
def recordFaults (a : NvArray) : Nat :=
  (a.stations.toList.map NvRecord.fault).sum + (a.sections.toList.map NvRecord.fault).sum + a.moduleRec.fault

/-! ### The scan's own writes (R91) -/

/-- What the scan's write of `t` leaves: as named, or `d`. -/
def scanLeft (w : ScanWrites) (t : ScanTarget) (d : Left) : Left :=
  ((w.find? fun x => x.1 == t).map Prod.snd).getD d

/-- A free header written to slot `n` (R91). -/
def freeHeader (l : Left) (n : Nat) (a : NvArray) : NvArray :=
  a.writeSlot n ⟨leaves l (a.slot n).header .free .failed, (a.slot n).body⟩

/-- The slots that the scan gives a free header: those whose header is not free and that are FREE in the
working form (R88, R89). -/
def slotsToFree (m : SlotMap Entry) (a : NvArray) : List Nat :=
  (a.slots.filter fun e => e.2.header != .free && (slotGet m e.1).isNone).map Prod.fst

/-- A failed record replaced by its delivery content (R90). -/
def replaceRecord {α : Type} (l : Left) (delivery : α) (r : NvRecord α) : NvRecord α :=
  match r with
  | .valid c => .valid c
  | .failed => leaves l .failed (.valid delivery) .failed

/-- The array after the scan's own writes: each leaves what `w` names, or `d`. -/
def scanWrites (d : Left) (w : ScanWrites) (m : SlotMap Entry) (a : NvArray) : NvArray :=
  { (slotsToFree m a).foldl (fun b n => freeHeader (scanLeft w (.slot n) d) n b) a with
    stations := each a.stations fun n r => replaceRecord (scanLeft w (.station n) d) .delivery r
    sections := each a.sections fun n r => replaceRecord (scanLeft w (.sect n) d) .delivery r
    moduleRec := replaceRecord (scanLeft w .moduleRec d) .delivery a.moduleRec }

/-! ### Module resets (R87, R88, R182, R194) -/

/-- The array as a module reset, a held reset line or a loss of the supply leaves it (R87): the writer's work
is cut short, and so are the own writes of a scan in progress. -/
def cutArray (i : Interruption) (s : State) : NvArray :=
  interruptJob i s.writer
    (if s.phase = .scanning then scanWrites .old i.written (partnerPass s.slots) s.array else s.array)

/-- The working form of every block and every timer discarded (R87), with the array, the field supply, the
image last returned and the waiting commands as they are. -/
def discard (i : Interruption) (s : State) : State :=
  { State.reset with
    pending := s.pending
    resetLine := s.resetLine
    startCause := s.startCause
    array := cutArray i s
    fieldPresent := s.fieldPresent
    inputImage := s.inputImage
    linkTimer := none }

/-- A module reset (R88, R182, R154): the channels begin afresh, the outputs are commanded OFF with their
readbacks read afresh, the link-loss timer starts, and the scan reads the slots. Each readback is an operand; that a
terminal between 5 V and 15 V is read as ON or as OFF, as the operand says, is the model's choice (DESIGN CHOICE, log
entry 13: R193 leaves such a readback as it was, and R154 reads it afresh). -/
def moduleReset (cause : StartCause) (i : Interruption) (terminals : Bank 4 Bool) (s : State) : State :=
  { discard i s with
    phase := .scanning
    resetLine := false
    startCause := cause
    slots := (readSlots (cutArray i s)).slots
    startFaults := (readSlots (cutArray i s)).faults
    outputs := each terminals fun _ level => Output.fresh level
    linkTimer := some Config.linkLossTime }

/-- The module held as at the beginning of a module reset (R194). -/
def holdModule (i : Interruption) (terminals : Bank 4 Bool) (s : State) : State :=
  { discard i s with
    phase := .held
    resetLine := true
    outputs := each terminals fun _ level => Output.fresh level }

/-- POWER_ON (R88); with the reset line active the module is held (R194, log entry 24). -/
def execPowerOn (i : Interruption) (terminals : Bank 4 Bool) (s : State) : Host.Outcome State Fault Refusal :=
  .next (if s.resetLine then holdModule i terminals s else moduleReset .powerOn i terminals s)

/-- BUS_RESET: the release of the reset line (R88, R194). Without logic supply the line alone changes. -/
def execBusReset (i : Interruption) (terminals : Bank 4 Bool) (s : State) : Host.Outcome State Fault Refusal :=
  .next (if s.phase = .off then { s with resetLine := false } else moduleReset .busReset i terminals s)

/-- BUS_RESET_LINE_ASSERTED (R194). Without logic supply the line alone changes. -/
def execBusResetLineAsserted (i : Interruption) (s : State) : Host.Outcome State Fault Refusal :=
  .next (if s.phase = .off then { s with resetLine := true }
    else holdModule i (each s.outputs fun _ o => o.readback) s)

/-- LOGIC_SUPPLY_LOSS: the four switches open and the module stops (R194). -/
def execLogicSupplyLoss (i : Interruption) (s : State) : Host.Outcome State Fault Refusal :=
  .next { discard i s with phase := .off }

/-! ### The end of the scan (R89 to R92, R119, R142) -/

/-- A station restored from its loaded record (R119). -/
def restoreStation (m : SlotMap Entry) (st : StationNo) (p : StationPersist) : StationRec :=
  if p.enrolled then rebuildRec m st (.idle p) else .idle p

/-- Steps 1 to 3 of R92: the slots as the partner pass leaves them, the digests, the records loaded and the
stations restored; the scan's own writes are in the array. -/
def loadArray (w : ScanWrites) (s : State) : State :=
  let m := partnerPass s.slots
  { s with
    slots := m
    startFaults := s.startFaults + passFaults s.slots + recordFaults s.array
    digests := rebuildDigests m
    stations := each s.array.stations fun st r => restoreStation m st (r.load .delivery)
    sections := each s.array.sections fun _ r => ⟨r.load .delivery, .steady⟩
    access := s.array.moduleRec.load .delivery
    array := scanWrites .new w m s.array }

/-- Step 4 of R92: each section recomputed, 1 to 4 (R142). The record writes they ask for all wait on
section records, so the writer begins with the lowest of them whether it takes it when it joins or when the
queue opens. -/
def recomputeAll (s : State) : State := (List.finRange 4).foldl (fun t sec => recompute sec t) s

/-- Step 5 of R92: the store is NORMAL, READY is set, and the outputs are formed (R154). -/
def openModule (s : State) : State := formOutputs s { s with phase := .running, degraded := false }

/-- The STORE flag at the end of a scan that counted a start fault (R184, R91). -/
def flagFaults (s : State) : State :=
  if s.startFaults = 0 then s else s.raise { EventSet.empty with store := true }

/-- START_UP_SCAN_END (R92). -/
def execStartUpScanEnd (w : ScanWrites) (s : State) : Host.Outcome State Fault Refusal :=
  .next (if s.phase = .scanning then flagFaults (openModule (recomputeAll (loadArray w s))) else s)

end Sys2Proof.Machine
end

