-- ==== Sys2Proof/Machine/Dispatch.lean ====
section
/-! DEFINITION. One arm per command: the meaning each one has. -/

namespace Sys2Proof.Machine

/-- The effect of a command on everything but the queue. -/
def exec (i : Instr) (s : State) : Host.Outcome State Fault Refusal :=
  match i with
  | .moduleInfo ch a => Sys2Proof.Machine.execModuleInfo ch a s
  | .readEvents ch a => Sys2Proof.Machine.execReadEvents ch a s
  | .setEventMask ch a => Sys2Proof.Machine.execSetEventMask ch a s
  | .signOn ch a => Sys2Proof.Machine.execSignOn ch a s
  | .signOff ch a => Sys2Proof.Machine.execSignOff ch a s
  | .setRoleCode ch a => Sys2Proof.Machine.execSetRoleCode ch a s
  | .openRelease ch a => Sys2Proof.Machine.execOpenRelease ch a s
  | .closeRelease ch a => Sys2Proof.Machine.execCloseRelease ch a s
  | .setLifetime ch a => Sys2Proof.Machine.execSetLifetime ch a s
  | .lookup ch a => Sys2Proof.Machine.execLookup ch a s
  | .lookupExact ch a => Sys2Proof.Machine.execLookupExact ch a s
  | .readLimits ch a => Sys2Proof.Machine.execReadLimits ch a s
  | .checkValue ch a => Sys2Proof.Machine.execCheckValue ch a s
  | .listEntries ch a => Sys2Proof.Machine.execListEntries ch a s
  | .nextEntry ch a => Sys2Proof.Machine.execNextEntry ch a s
  | .readDigest ch a => Sys2Proof.Machine.execReadDigest ch a s
  | .draftBegin ch a => Sys2Proof.Machine.execDraftBegin ch a s
  | .draftSet ch a => Sys2Proof.Machine.execDraftSet ch a s
  | .draftCreate ch a => Sys2Proof.Machine.execDraftCreate ch a s
  | .draftRetire ch a => Sys2Proof.Machine.execDraftRetire ch a s
  | .draftBounds ch a => Sys2Proof.Machine.execDraftBounds ch a s
  | .draftTolerance ch a => Sys2Proof.Machine.execDraftTolerance ch a s
  | .draftPartner ch a => Sys2Proof.Machine.execDraftPartner ch a s
  | .draftSubmit ch a => Sys2Proof.Machine.execDraftSubmit ch a s
  | .draftDiscard ch a => Sys2Proof.Machine.execDraftDiscard ch a s
  | .approve ch a => Sys2Proof.Machine.execApprove ch a s
  | .reject ch a => Sys2Proof.Machine.execReject ch a s
  | .withdraw ch a => Sys2Proof.Machine.execWithdraw ch a s
  | .listProposals ch a => Sys2Proof.Machine.execListProposals ch a s
  | .nextProposal ch a => Sys2Proof.Machine.execNextProposal ch a s
  | .readProposal ch a => Sys2Proof.Machine.execReadProposal ch a s
  | .enroll ch a => Sys2Proof.Machine.execEnroll ch a s
  | .unenroll ch a => Sys2Proof.Machine.execUnenroll ch a s
  | .reportValue ch a => Sys2Proof.Machine.execReportValue ch a s
  | .reportDigest ch a => Sys2Proof.Machine.execReportDigest ch a s
  | .hold ch a => Sys2Proof.Machine.execHold ch a s
  | .releaseHold ch a => Sys2Proof.Machine.execReleaseHold ch a s
  | .readStation ch a => Sys2Proof.Machine.execReadStation ch a s
  | .readDivergence ch a => Sys2Proof.Machine.execReadDivergence ch a s
  | .changeover ch a => Sys2Proof.Machine.execChangeover ch a s
  | .abortChangeover ch a => Sys2Proof.Machine.execAbortChangeover ch a s
  | .setSection ch a => Sys2Proof.Machine.execSetSection ch a s
  | .readSection ch a => Sys2Proof.Machine.execReadSection ch a s
  | .setOutputMode ch a => Sys2Proof.Machine.execSetOutputMode ch a s
  | .unknownRequest ch code a => Sys2Proof.Machine.execUnknownRequest ch code a s
  | .imageExchange image => Sys2Proof.Machine.execImageExchange image s
  | .answerAcknowledge ch => Sys2Proof.Machine.execAnswerAcknowledge ch s
  | .requestAbandonment ch => Sys2Proof.Machine.execRequestAbandonment ch s
  | .channelReset ch => Sys2Proof.Machine.execChannelReset ch s
  | .channelResetEnd ch req => Sys2Proof.Machine.execChannelResetEnd ch req s
  | .linkLoss => Sys2Proof.Machine.execLinkLoss s
  | .proposalExpiry number => Sys2Proof.Machine.execProposalExpiry number s
  | .windowExpiry st => Sys2Proof.Machine.execWindowExpiry st s
  | .deadlineExpiry sec => Sys2Proof.Machine.execDeadlineExpiry sec s
  | .bypassExpiry sec => Sys2Proof.Machine.execBypassExpiry sec s
  | .lockoutExpiry ch => Sys2Proof.Machine.execLockoutExpiry ch s
  | .releaseExpiry => Sys2Proof.Machine.execReleaseExpiry s
  | .readbackChange sec level => Sys2Proof.Machine.execReadbackChange sec level s
  | .outputFaultDelayExpiry sec => Sys2Proof.Machine.execOutputFaultDelayExpiry sec s
  | .fieldSupplyLoss => Sys2Proof.Machine.execFieldSupplyLoss s
  | .fieldSupplyReturn => Sys2Proof.Machine.execFieldSupplyReturn s
  | .outputTrip sec => Sys2Proof.Machine.execOutputTrip sec s
  | .tripRetry sec within => Sys2Proof.Machine.execTripRetry sec within s
  | .recordWriteCompletion o => Sys2Proof.Machine.execRecordWriteCompletion o s
  | .slotWriteCompletion o => Sys2Proof.Machine.execSlotWriteCompletion o s
  | .proposalItemCompletion o => Sys2Proof.Machine.execProposalItemCompletion o s
  | .powerOn cut terminals => Sys2Proof.Machine.execPowerOn cut terminals s
  | .busReset cut terminals => Sys2Proof.Machine.execBusReset cut terminals s
  | .busResetLineAsserted cut => Sys2Proof.Machine.execBusResetLineAsserted cut s
  | .logicSupplyLoss cut => Sys2Proof.Machine.execLogicSupplyLoss cut s
  | .startUpScanEnd w => Sys2Proof.Machine.execStartUpScanEnd w s

end Sys2Proof.Machine
end

