-- ==== Sys2Proof/Machine/Step.lean ====
section
/-! DEFINITION. One step: the command at the front of the queue, or one millisecond where none waits. -/

namespace Sys2Proof.Machine

/-- A station's window timer after a millisecond (R104). -/
def StationRec.tick (r : StationRec) : StationRec := { r with timer := timerTick r.timer }

/-- A section's deadline timer after a millisecond (R133). -/
def SectionState.tick : SectionState → SectionState
  | .steady => .steady
  | .changing target remaining => .changing target (remaining - 1)
  | .split => .split

/-- An output's bypass timer and fault delay after a millisecond (R148, R150). -/
def OutputMode.tick : OutputMode → OutputMode
  | .auto => .auto
  | .forcedOff => .forcedOff
  | .bypass remaining => .bypass (remaining - 1)

/-- A proposal's expiry timer after a millisecond (R56); none runs in WRITING. -/
def ProposalState.tick : ProposalState → ProposalState
  | .awaiting remaining => .awaiting (remaining - 1)
  | .writing ch => .writing ch

/-- One millisecond passes: every running timer counts down, and stays at 0 until its expiry is taken. A
module without supply, or held by the reset line, has no timer running (R87, R194). DESIGN CHOICE, log
entry 4. -/
def State.tick (s : State) : State :=
  { s with
    channels := each s.channels fun _ c => { c with lockout := timerTick c.lockout }
    stations := each s.stations fun _ r => r.tick
    sections := each s.sections fun _ r => { r with state := r.state.tick }
    outputs := each s.outputs fun _ o => { o with mode := o.mode.tick, faultDelay := timerTick o.faultDelay }
    proposals := s.proposals.map fun p => { p with state := p.state.tick }
    release := timerTick s.release
    linkTimer := timerTick s.linkTimer }

/-- One step: the command at the front of the queue is taken, with the rest of the queue; with none
waiting, one millisecond passes. -/
def step (s : State) : Host.Outcome State Fault Refusal :=
  match s.pending with
  | c :: rest => exec c { s with pending := rest }
  | [] => .next s.tick

/-- The state with the command that a word spells at the front of its queue. -/
def State.withFetchWord (s : State) (nbits w : Nat) : State :=
  match decodeTableWord nbits w with
  | some c => { s with pending := c :: s.pending }
  | none => s

end Sys2Proof.Machine
end

