-- ==== Sys2Proof/Safety.lean ====
section
/-! DEFINITION. What the statements about the 3240 are said with: requests by the manual's own tables, the answered channel, and the laws of the manual that every step keeps. -/

namespace Sys2Proof.Machine

/-! ### Requests by Tables 46 and 59 -/

/-- The channel, the request code (Table 59) and the argument bytes of a command that is a request. -/
def requestParts : Instr → Option (ChannelNo × Byte × Args)
  | .moduleInfo ch a => some (ch, 0x01, a)
  | .readEvents ch a => some (ch, 0x02, a)
  | .setEventMask ch a => some (ch, 0x03, a)
  | .signOn ch a => some (ch, 0x04, a)
  | .signOff ch a => some (ch, 0x05, a)
  | .setRoleCode ch a => some (ch, 0x06, a)
  | .openRelease ch a => some (ch, 0x07, a)
  | .closeRelease ch a => some (ch, 0x08, a)
  | .setLifetime ch a => some (ch, 0x09, a)
  | .lookup ch a => some (ch, 0x10, a)
  | .lookupExact ch a => some (ch, 0x11, a)
  | .readLimits ch a => some (ch, 0x12, a)
  | .checkValue ch a => some (ch, 0x13, a)
  | .listEntries ch a => some (ch, 0x14, a)
  | .nextEntry ch a => some (ch, 0x15, a)
  | .readDigest ch a => some (ch, 0x16, a)
  | .draftBegin ch a => some (ch, 0x20, a)
  | .draftSet ch a => some (ch, 0x21, a)
  | .draftCreate ch a => some (ch, 0x22, a)
  | .draftRetire ch a => some (ch, 0x23, a)
  | .draftBounds ch a => some (ch, 0x24, a)
  | .draftTolerance ch a => some (ch, 0x25, a)
  | .draftPartner ch a => some (ch, 0x26, a)
  | .draftSubmit ch a => some (ch, 0x27, a)
  | .draftDiscard ch a => some (ch, 0x28, a)
  | .approve ch a => some (ch, 0x30, a)
  | .reject ch a => some (ch, 0x31, a)
  | .withdraw ch a => some (ch, 0x32, a)
  | .listProposals ch a => some (ch, 0x33, a)
  | .nextProposal ch a => some (ch, 0x34, a)
  | .readProposal ch a => some (ch, 0x35, a)
  | .enroll ch a => some (ch, 0x40, a)
  | .unenroll ch a => some (ch, 0x41, a)
  | .reportValue ch a => some (ch, 0x42, a)
  | .reportDigest ch a => some (ch, 0x43, a)
  | .hold ch a => some (ch, 0x44, a)
  | .releaseHold ch a => some (ch, 0x45, a)
  | .readStation ch a => some (ch, 0x46, a)
  | .readDivergence ch a => some (ch, 0x47, a)
  | .changeover ch a => some (ch, 0x50, a)
  | .abortChangeover ch a => some (ch, 0x51, a)
  | .setSection ch a => some (ch, 0x52, a)
  | .readSection ch a => some (ch, 0x53, a)
  | .setOutputMode ch a => some (ch, 0x54, a)
  | .unknownRequest ch code a => some (ch, code, a)
  | .imageExchange _ => none
  | .answerAcknowledge _ => none
  | .requestAbandonment _ => none
  | .channelReset _ => none
  | .channelResetEnd _ _ => none
  | .linkLoss => none
  | .proposalExpiry _ => none
  | .windowExpiry _ => none
  | .deadlineExpiry _ => none
  | .bypassExpiry _ => none
  | .lockoutExpiry _ => none
  | .releaseExpiry => none
  | .readbackChange _ _ => none
  | .outputFaultDelayExpiry _ => none
  | .fieldSupplyLoss => none
  | .fieldSupplyReturn => none
  | .outputTrip _ => none
  | .tripRetry _ _ => none
  | .recordWriteCompletion _ => none
  | .slotWriteCompletion _ => none
  | .proposalItemCompletion _ => none
  | .powerOn _ _ => none
  | .busReset _ _ => none
  | .busResetLineAsserted _ => none
  | .logicSupplyLoss _ => none
  | .startUpScanEnd _ => none

/-- Every role (Table 46). -/
def everyRole : List Role := [.noRole, .operator, .engineer, .quality]

/-- The request codes with the number of argument bytes each uses (Table 59) and the roles it admits
(Table 46). -/
def requestTable : List (Nat × Nat × List Role) :=
  [(0x01, 1, everyRole),
   (0x02, 0, everyRole),
   (0x03, 1, everyRole),
   (0x04, 5, everyRole),
   (0x05, 0, everyRole),
   (0x06, 5, [.quality]),
   (0x07, 2, [.quality]),
   (0x08, 0, [.quality]),
   (0x09, 2, [.quality]),
   (0x10, 4, everyRole),
   (0x11, 4, everyRole)] ++
  [(0x12, 5, everyRole),
   (0x13, 8, everyRole),
   (0x14, 2, everyRole),
   (0x15, 0, everyRole),
   (0x16, 2, everyRole),
   (0x20, 0, [.operator, .engineer]),
   (0x21, 10, [.operator, .engineer]),
   (0x22, 9, [.operator, .engineer]),
   (0x23, 6, [.operator, .engineer]),
   (0x24, 9, [.operator, .engineer]),
   (0x25, 2, [.operator, .engineer])] ++
  [(0x26, 2, [.operator, .engineer]),
   (0x27, 0, [.operator, .engineer]),
   (0x28, 0, [.operator, .engineer]),
   (0x30, 1, [.engineer, .quality]),
   (0x31, 1, [.engineer, .quality]),
   (0x32, 1, [.operator, .engineer, .quality]),
   (0x33, 0, everyRole),
   (0x34, 0, everyRole),
   (0x35, 3, everyRole),
   (0x40, 3, [.engineer]),
   (0x41, 1, [.engineer])] ++
  [(0x42, 7, everyRole),
   (0x43, 8, everyRole),
   (0x44, 1, [.operator, .engineer, .quality]),
   (0x45, 1, [.operator, .engineer, .quality]),
   (0x46, 1, everyRole),
   (0x47, 2, everyRole),
   (0x50, 2, [.operator, .engineer]),
   (0x51, 1, [.operator, .engineer]),
   (0x52, 3, [.engineer]),
   (0x53, 1, everyRole),
   (0x54, 4, [.operator, .engineer, .quality])]

/-- The argument bytes and roles of a request code; none for a code absent from Table 59. -/
def listedRequest (code : Byte) : Option (Nat × List Role) := requestTable.lookup code.toNat

/-- A request on `ch` arrives and passes the checks of R173 and R174: an arrival can take place, READY is
set, the argument bytes from `used` on are 0, and the bound role is among `roles`. -/
def Passes (used : Nat) (roles : List Role) (ch : ChannelNo) (a : Args) (s : State) : Prop :=
  s.canArrive ch = true ∧ s.ready = true ∧ unusedZero a used = true ∧ s.role ch ∈ roles

/-- The state with the request on `ch` completed (R173, R175): ANSWERED, not armed, the answer written whole;
nothing else differs. -/
def answered (ch : ChannelNo) (code : AnswerCode) (result : List Byte) (s : State) : State :=
  s.onChannel ch fun c => { c with handshake := .answered, armed := false, answer := .of code result }

/-! ### Arguments out of range -/

/-- A key outside stations 1-32, formats 0-15 or parameters 0-1023 (R14, R41). -/
def keyOut (a : Args) : Prop :=
  argByte a 0 = 0 ∨ 32 < (argByte a 0).toNat ∨ 15 < (argByte a 1).toNat ∨ 1023 < (argHalf a 2).toNat

/-- A station outside 1-32. -/
def stationOut (a : Args) : Prop := argByte a 0 = 0 ∨ 32 < (argByte a 0).toNat

/-- A section outside 1-4, in the byte `n`. -/
def sectionOut (a : Args) (n : Nat) : Prop := argByte a n = 0 ∨ 4 < (argByte a n).toNat

/-- An argument outside the range that the request's own rule gives it. -/
def argumentOut (a : Args) : Instr → Prop
  | .signOn _ _ => argByte a 0 = 0 ∨ 3 < (argByte a 0).toNat ∨ 999999 < (argWord a 1).toNat
  | .lookup _ _ => keyOut a
  | .lookupExact _ _ => keyOut a
  | .readLimits _ _ => keyOut a
  | .checkValue _ _ => keyOut a
  | .listEntries _ _ =>
    (stationOut a ∧ argByte a 0 ≠ 0xFF) ∨ (15 < (argByte a 1).toNat ∧ argByte a 1 ≠ 0xFF)
  | .draftSet _ _ => keyOut a
  | .draftCreate _ _ => keyOut a ∨ 2 < (argByte a 8).toNat
  | .draftRetire _ _ => keyOut a
  | .draftBounds _ _ => (argByte a 0).toNat % 4 = 3 ∨ 11 < (argByte a 0).toNat
  | .draftPartner _ _ => 1023 < (argHalf a 0).toNat
  | .reject _ _ => argByte a 0 = 0
  | .withdraw _ _ => argByte a 0 = 0
  | .readProposal _ _ => argByte a 0 = 0 ∨ 1 < (argByte a 1).toNat ∨ 3 < (argByte a 2).toNat
  | .enroll _ _ => stationOut a ∨ sectionOut a 1 ∨ argByte a 2 = 0 ∨ 250 < (argByte a 2).toNat
  | .unenroll _ _ => stationOut a
  | .reportValue _ _ => stationOut a ∨ 1023 < (argHalf a 1).toNat
  | .reportDigest _ _ =>
    stationOut a ∨ argByte a 1 = 0 ∨ 15 < (argByte a 1).toNat ∨ 1024 < (argHalf a 2).toNat
  | .hold _ _ => stationOut a
  | .releaseHold _ _ => stationOut a
  | .readStation _ _ => stationOut a
  | .readDivergence _ _ => stationOut a ∨ 7 < (argByte a 1).toNat
  | .changeover _ _ => sectionOut a 0 ∨ argByte a 1 = 0 ∨ 15 < (argByte a 1).toNat
  | .abortChangeover _ _ => sectionOut a 0
  | .setSection _ _ => sectionOut a 0
  | .readSection _ _ => sectionOut a 0
  | .setOutputMode _ _ => sectionOut a 0
  | _ => False

/-! ### The checks of submission (Table 19) -/

/-- `SubmitFault s role l n i c code result`: of the draft `l` submitted by `role`, change `i`, which is `c`, fails
check `n` of Table 19, and is answered `code` with `result` (R45 to R49). -/
inductive SubmitFault (s : State) (role : Role) (l : List Change) :
    Nat → Nat → Change → AnswerCode → List Byte → Prop where
  /-- An OPERATOR proposes what is no value-only SET of a TUNABLE entry (R45). -/
  | denied (i : Nat) (c : Change) :
      role = .operator → ¬ (c.valueOnly = true ∧ classAt s.slots c = some .tunable) →
      SubmitFault s role l 2 i c .denied [role.byte, 0, byteOf i]
  /-- The role may propose the change, its class is FIXED, and the release is closed (R45). -/
  | closed (i : Nat) (c : Change) :
      (role = .operator → c.valueOnly = true ∧ classAt s.slots c = some .tunable) →
      classAt s.slots c = some .fixed → s.release = none →
      SubmitFault s role l 2 i c .releaseClosed [byteOf i]
  /-- A SET or RETIRE of a key without an entry (R46). -/
  | absent (i : Nat) (c : Change) :
      c.kind ≠ .create → entryAt s.slots c.key = none → SubmitFault s role l 3 i c .noEntry [byteOf i]
  /-- A CREATE of a key with an entry (R46). -/
  | present (i : Nat) (c : Change) (e : Entry) :
      c.kind = .create → entryAt s.slots c.key = some e → SubmitFault s role l 3 i c .exists [byteOf i]
  /-- An expected revision that is not the entry's (R46). -/
  | revision (i : Nat) (c : Change) (x : Half) :
      c.expected = some x → x ≠ revisionAt s.slots c.key →
      SubmitFault s role l 4 i c .revisionMismatch (byteOf i :: halfBytes (revisionAt s.slots c.key))
  /-- A SET or RETIRE of an entry whose partner has no change in the draft (R47). -/
  | alone (i : Nat) (c : Change) (q : ParamNo) :
      c.kind ≠ .create → partnerOf s.slots c = some q → (∀ d ∈ l, d.key ≠ { c.key with param := q }) →
      SubmitFault s role l 5 i c .partnerRequired [byteOf i]
  /-- A SET or RETIRE of an entry whose partner has a change of another kind (R47). -/
  | otherKind (i : Nat) (c d : Change) (q : ParamNo) :
      c.kind ≠ .create → partnerOf s.slots c = some q → d ∈ l → d.key = { c.key with param := q } →
      d.kind ≠ c.kind → SubmitFault s role l 5 i c .partnerInvalid [byteOf i]
  /-- A CREATE that names a partner, and no CREATE of that key names it in return (R47). -/
  | unpaired (i : Nat) (c : Change) (q : ParamNo) :
      c.kind = .create → c.named = some q →
      (∀ d ∈ l, d.key = { c.key with param := q } → d.kind = .create → d.named ≠ some c.key.param) →
      SubmitFault s role l 5 i c .partnerInvalid [byteOf i]
  /-- Effective bounds out of order (R48). -/
  | bounds (i : Nat) (c : Change) (low high v : Word) :
      c.effective s.slots = some (some low, some high, v) → high.toInt < low.toInt →
      SubmitFault s role l 6 i c .boundsInvalid [byteOf i]
  /-- Effective bounds in order, and the new value outside them (R48). -/
  | outside (i : Nat) (c : Change) (low high : Option Word) (v : Word) :
      c.effective s.slots = some (low, high, v) →
      (∀ lo hi, low = some lo → high = some hi → lo.toInt ≤ hi.toInt) →
      ((∃ lo, low = some lo ∧ v.toInt < lo.toInt) ∨ ∃ hi, high = some hi ∧ hi.toInt < v.toInt) →
      SubmitFault s role l 6 i c .outOfBounds [byteOf i]
  /-- A SET of a DAMAGED entry that does not state its whole body (R48). -/
  | repair (i : Nat) (k : Key) (x : Half) (v : Word) (low high : BoundField) (t : Option Half) (e : Entry) :
      entryAt s.slots k = some e → e.body = none → (low = .unchanged ∨ high = .unchanged ∨ t = none) →
      SubmitFault s role l 7 i (.set k x v low high t) .badArgument [byteOf i]
  /-- The key is in an open proposal (R49). -/
  | conflict (i : Nat) (c : Change) (p : Proposal) :
      p ∈ s.proposals → c.key ∈ p.changes.map Change.key →
      SubmitFault s role l 8 i c .conflict [byteOf i, byteOf p.number]

/-! ### One channel's part of an image exchange -/

/-- The control byte of `ch` in an image takes the state `v` to `w` (R173, R176 to R178, R181): RESET set is the
onset of a channel reset, unless it is held already; else a held reset ends; else REQ set is the request that the
area spells; else both are clear. -/
def ControlTaken (image : OutputImage) (ch : ChannelNo) (v w : State) : Prop :=
  ((controlByte image ch).getLsbD 1 = true →
    ((sel v.channels ch).resetHeld = true → w = v) ∧
    ((sel v.channels ch).resetHeld = false →
      w = v.onChannel ch fun c =>
        { c with
          handshake := match c.handshake with
            | .idle => .idle | .working _ req => .working false req | .answered => .idle
          armed := false, resetHeld := true, answer := ⟨0, Vector.replicate 10 0⟩
          flags := ⟨false, false, false, false, false⟩, mask := ⟨false, false, false, false, false⟩
          role := .noRole, draft := none, cursor := .noCursor })) ∧
  ((controlByte image ch).getLsbD 1 = false →
    ((sel v.channels ch).resetHeld = true →
      w = v.onChannel ch fun c =>
        { c with
          resetHeld := false
          armed := c.armed || (!(controlByte image ch).getLsbD 0 && decide (c.handshake = .idle)) }) ∧
    ((sel v.channels ch).resetHeld = false →
      ((controlByte image ch).getLsbD 0 = true → ∀ c : Instr, c.wf = true →
        requestParts c = some (ch, requestCode image ch, requestArgs image ch) → exec c v = .next w) ∧
      ((controlByte image ch).getLsbD 0 = false →
        w = v.onChannel ch fun c =>
          match c.handshake with
          | .idle => { c with armed := true }
          | .working _ req => { c with handshake := .working false req }
          | .answered => { c with handshake := .idle, armed := true })))

/-! ### Laws of the manual -/

/-- R145, R146 and R150: each output's commanded state is the one its mode forms, and its OUTPUT_FAULT the
one R150 forms. -/
def OutputLaw (s : State) : Prop :=
  ∀ sec : SectionNo,
    (sel s.outputs sec).commanded = s.commandFormed sec ∧
      (sel s.outputs sec).fault = (sel s.outputs sec).faultFormed

/-- The parameters that a divergence list's parameter records are about, in list order. -/
def paramsListed (l : List DivRecord) : List ParamNo :=
  l.filterMap fun d => match d with | .param p _ _ => some p | .level _ _ _ => none

/-- R98: at most 8 records, no two for the same parameter, at most one station-level record. -/
def ListLaw (s : State) : Prop :=
  ∀ st : StationNo,
    (sel s.stations st).list.length ≤ 8 ∧ (paramsListed (sel s.stations st).list).Nodup ∧
      ((sel s.stations st).list.filter DivRecord.isLevel).length ≤ 1

/-- R94: the volatile part of an unenrolled station is empty. -/
def IdleLaw (s : State) : Prop :=
  ∀ st : StationNo, (sel s.stations st).persist.enrolled = false →
    sel s.stations st = .idle (sel s.stations st).persist

/-- R123: a section in STEADY state has every enrolled station on the section's format. -/
def SectionLaw (s : State) : Prop :=
  ∀ (sec : SectionNo) (st : StationNo), (sel s.sections sec).state = .steady →
    (sel s.stations st).persist.enrolled = true → (sel s.stations st).persist.sect = sec →
      (sel s.stations st).persist.format = (sel s.sections sec).persist.format

/-- The slots that the writer's plans name lie in the array. -/
def plansInArray : Option Job → Prop
  | some (.proposal _ _ plans _) => ∀ p ∈ plans, p.slot < 2048
  | some (.moduleRec _) => True
  | some (.sect _ _) => True
  | some (.station _ _) => True
  | none => True

/-- R2 and R72: the working form and the array list slots of 0-2047 in rising order, the array none that
reads as the factory left it, and the writer writes to such a slot. -/
def StoreLaw (s : State) : Prop :=
  workingWf s.slots = true ∧ s.array.wf = true ∧ plansInArray s.writer

/-- The keys of some changes. -/
def keysOf (l : List Change) : List Key := l.map Change.key

/-- R38: a draft holds at most two changes, and no key twice. -/
def DraftLaw (s : State) : Prop :=
  ∀ (ch : ChannelNo) (l : List Change), (sel s.channels ch).draft = some l →
    l.length ≤ 2 ∧ (keysOf l).Nodup

/-- R51, R52 and R53: at most 16 open proposals; their numbers are of 1-255 and distinct, their stamps rise
and precede the next one, and no key appears in two of them or twice in one. -/
def ProposalLaw (s : State) : Prop :=
  s.proposals.length ≤ 16 ∧
    (s.proposals.map Proposal.number).Nodup ∧
    (∀ p ∈ s.proposals, 1 ≤ p.number ∧ p.number ≤ 255 ∧ p.stamp < s.nextStamp) ∧
    (s.proposals.map Proposal.stamp).Pairwise (· < ·) ∧
    (s.proposals.flatMap fun p => keysOf p.changes).Nodup ∧ s.lastNumber ≤ 255

/-- R1: no two entries of the table have the same key. -/
def KeysUnique (m : SlotMap Entry) : Prop := (m.map fun e => e.2.key).Nodup

/-- R27: every expected pair is the one computed whole from the table. -/
def DigestLaw (s : State) : Prop := s.digests = rebuildDigests s.slots

/-- R7: every entry that names a partner has it in the table, naming it in return, and two partners that are both
ACTIVE have one revision. -/
def PartnersLaw (m : SlotMap Entry) : Prop :=
  ∀ e ∈ m.map Prod.snd, ∀ q, e.partner = some q →
    ∃ d, entryAt m { e.key with param := q } = some d ∧ d.partner = some e.key.param ∧
      ∀ b b', e.body = some b → d.body = some b' → b.revision = b'.revision

/-- R10: a freed slot is one that the table holds, DAMAGED and with a partner, and its header reads as no entry's; the
freed slots are listed in rising order, and there is none before READY is set. -/
def FreedLaw (s : State) : Prop :=
  (∀ n ∈ s.freed, (∃ e, slotGet s.slots n = some e ∧ e.body = none ∧ e.partner ≠ none) ∧
    ∀ k cls q, (s.array.slot n).header ≠ .entry k cls q) ∧
    s.freed.Pairwise (· < ·) ∧ (s.phase ≠ .running → s.freed = [])

/-- R1, R2, R5 and R10: the working form in order, no key twice, and every ACTIVE entry's bounds in order, its value
within them and its revision not 0; the law of the freed slots; and once READY is set, R7 and R27. -/
def TableLaw (s : State) : Prop :=
  workingWf s.slots = true ∧ KeysUnique s.slots ∧ FreedLaw s ∧
    (∀ e ∈ s.slots.map Prod.snd, ∀ b, e.body = some b →
      (∀ lo hi, b.low = some lo → b.high = some hi → lo.toInt ≤ hi.toInt) ∧
      (∀ lo, b.low = some lo → lo.toInt ≤ b.value.toInt) ∧ (∀ hi, b.high = some hi → b.value.toInt ≤ hi.toInt) ∧
      b.revision ≠ 0) ∧
    (s.phase = .running → PartnersLaw s.slots ∧ DigestLaw s)

/-- The store writer is writing the item of proposal `number`, approved on `ch`. -/
def BeingWritten (s : State) (ch : ChannelNo) (number : Nat) : Prop :=
  ∃ plans results, s.writer = some (.proposal ch number plans results)

/-- R74: a proposal is WRITING, with its approving channel, exactly when its item is queued or being written, and
not both; no item is queued twice; and before READY is set no proposal is open, nothing is queued or being written
(R88), and every section is STEADY (R87, log entry 8). -/
def WritingLaw (s : State) : Prop :=
  s.queue.Nodup ∧
    (∀ ch n, (WriteItem.proposal ch n ∈ s.queue ∨ BeingWritten s ch n) ↔
      ∃ p ∈ s.proposals, p.number = n ∧ p.state = .writing ch) ∧
    (∀ ch n, ¬ (WriteItem.proposal ch n ∈ s.queue ∧ BeingWritten s ch n)) ∧
    (s.phase ≠ .running → s.proposals = [] ∧ s.queue = [] ∧ s.writer = none ∧
      ∀ sec, (sel s.sections sec).state = .steady)

/-- Changes fit the table, as checks 3, 5 and 6 of submission leave them: a CREATE names a key without an entry,
the others one with; bounds and value are in order; and partners are changed together. -/
def ChangesFit (m : SlotMap Entry) (l : List Change) : Prop :=
  ∀ c ∈ l,
    (c.kind = .create ↔ entryAt m c.key = none) ∧
    (∀ low high v, c.effective m = some (low, high, v) →
      (∀ lo hi, low = some lo → high = some hi → lo.toInt ≤ hi.toInt) ∧
      (∀ lo, low = some lo → lo.toInt ≤ v.toInt) ∧ (∀ hi, high = some hi → v.toInt ≤ hi.toInt)) ∧
    (∀ q, partnerOf m c = some q → ∃ d ∈ l, d.key = { c.key with param := q } ∧ d.kind = c.kind ∧
      partnerOf m d = some c.key.param)

/-- What the open proposals and the writer's plans rest on, kept from submission to completion (R50, R68, R79): the
changes fit the table, it has room for the CREATEs of WRITING proposals, the slot writes of the item being written
are those formed from the table, and a RETIRE of them that verified has left its slot free. -/
def WorkLaw (s : State) : Prop :=
  (∀ p ∈ s.proposals, p.changes ≠ [] ∧ ChangesFit s.slots p.changes) ∧
    s.slots.length + s.writingCreates ≤ 2048 ∧
    (∀ ch n plans results, s.writer = some (.proposal ch n plans results) →
      results.length < plans.length ∧
      ∃ p ∈ s.proposals, p.number = n ∧
        planSlots s.slots p.changes (s.slots.map Prod.fst) p.changes = some plans) ∧
    (∀ ch n plans results p, s.writer = some (.proposal ch n plans results) → (p, true) ∈ plans.zip results →
      p.kind = .retire → (s.array.slot p.slot).header = .free)

end Sys2Proof.Machine
end

