-- ==== Sys2Proof/Certificates/Slice0/Obligations.lean ====
section
/-! DEFINITION. The statements about the 3240 that the provers are given. -/

open Sys2Proof Sys2Proof.Machine

/-! ### The queue of commands, reset, and the laws at reset -/

/-- A step takes the command at the front of the queue and is its meaning, with the rest of the queue. -/
def Obligations.StepTakesFront : Prop :=
  ∀ (c : Instr) (rest : List Instr) (s : State), s.pending = c :: rest →
    step s = exec c { s with pending := rest }

/-- With no command waiting one millisecond passes: every running timer (lockouts, report windows, deadlines, bypass
timers, the 50 ms of an output, the proposals' expiry timers, the release, the link-loss timer) counts down to 0 and
stays there, and nothing else changes. This is the model's choice (log entry 4). -/
def Obligations.IdleStepCountsTimers : Prop :=
  ∀ s : State, s.pending = [] →
    step s = .next
      { s with
        channels := each s.channels fun _ c => { c with lockout := c.lockout.map (· - 1) }
        stations := each s.stations fun _ r => { r with timer := r.timer.map (· - 1) }
        sections := each s.sections fun _ r =>
          { r with state := match r.state with
            | .steady => .steady | .changing target n => .changing target (n - 1) | .split => .split }
        outputs := each s.outputs fun _ o =>
          { o with
            mode := match o.mode with | .auto => .auto | .forcedOff => .forcedOff | .bypass n => .bypass (n - 1)
            faultDelay := o.faultDelay.map (· - 1) }
        proposals := s.proposals.map fun p =>
          { p with state := match p.state with | .awaiting n => .awaiting (n - 1) | .writing ch => .writing ch }
        release := s.release.map (· - 1)
        linkTimer := s.linkTimer.map (· - 1) }

/-- The machine right after reset: every channel as R182 gives it, the outputs as R154, the proposal list and
its numbering as R51 and R52, the queue as R88, the array as R72 and R73 leave the factory, and the laws of
Safety.lean in force. That the reset is a power-on of a factory module with its scan in progress is the
model's choice (log entry 6). -/
def Obligations.ResetState : Prop :=
  State.reset.phase = .scanning ∧ State.reset.startCause = .powerOn ∧ State.reset.pending = [] ∧
  (∀ ch, sel State.reset.channels ch =
    { handshake := .idle, armed := true, resetHeld := false, answer := ⟨0, Vector.replicate 10 0⟩,
      flags := ⟨false, false, false, false, false⟩, mask := ⟨false, false, false, false, false⟩,
      role := .noRole, draft := none, cursor := .noCursor, wrongCodes := 0, lockout := none }) ∧
  State.reset.link = .present ∧ State.reset.linkTimer = some 200 ∧
  (∀ sec, (sel State.reset.outputs sec).mode = .auto ∧ (sel State.reset.outputs sec).commanded = false) ∧
  State.reset.proposals = [] ∧ State.reset.lastNumber = 0 ∧
  State.reset.queue = [] ∧ State.reset.writer = none ∧ State.reset.release = none ∧
  (∀ n, (State.reset.array.slot n).header = .free) ∧
  (∀ st, sel State.reset.array.stations st = .valid ⟨false, 0, 10, 1⟩) ∧
  (∀ sec, sel State.reset.array.sections sec = .valid ⟨1, 600⟩) ∧
  State.reset.array.moduleRec = .valid ⟨none, none, none, 900⟩ ∧
  OutputLaw State.reset ∧ ListLaw State.reset ∧ IdleLaw State.reset ∧ SectionLaw State.reset ∧
  StoreLaw State.reset ∧ DraftLaw State.reset ∧ ProposalLaw State.reset ∧
  KeysUnique State.reset.slots ∧ DigestLaw State.reset ∧ TableLaw State.reset ∧ WritingLaw State.reset ∧
  WorkLaw State.reset

/-- No command ends in a fault or a refusal; and a request on a channel where no arrival can take place is not
seen: off, held, link lost, channel not IDLE, not armed or held in reset. That the request rows are the
channel's part of an exchange is the model's choice (log entry 1). -/
def Obligations.EveryCommandCompletes : Prop :=
  (∀ (c : Instr) (s : State), ∃ t, exec c s = .next t) ∧
  (∀ (c : Instr) (ch : ChannelNo) (code : Byte) (a : Args) (s : State),
    requestParts c = some (ch, code, a) → s.canArrive ch = false → exec c s = .next s)

/-! ### The channel interface's checks -/

/-- R174: NOT_READY before BAD_REQUEST before DENIED; each changes the channel's handshake and answer alone.
-/
def Obligations.ChannelChecks : Prop :=
  ∀ (c : Instr) (ch : ChannelNo) (code : Byte) (a : Args) (s : State),
    c.wf = true → requestParts c = some (ch, code, a) → s.canArrive ch = true →
    (s.ready = false → exec c s = .next (answered ch .notReady [] s)) ∧
    (s.ready = true → listedRequest code = none → exec c s = .next (answered ch .badRequest [] s)) ∧
    (∀ (used : Nat) (roles : List Role), s.ready = true → listedRequest code = some (used, roles) →
      (unusedZero a used = false → exec c s = .next (answered ch .badRequest [] s)) ∧
      (unusedZero a used = true → s.role ch ∉ roles →
        exec c s = .next (answered ch .denied [(s.role ch).byte] s)))

/-- An argument outside its range answers BAD_ARGUMENT and changes nothing (R14, R22, R41 to R43, R58, R59, R64,
R95, R96, R99, R101, R103, R112, R114, R117, R128, R137, R139, R140, R147, R161). -/
def Obligations.OutOfRangeArguments : Prop :=
  ∀ (i : Instr) (ch : ChannelNo) (code : Byte) (a : Args) (s : State) (used : Nat) (roles : List Role),
    i.wf = true → requestParts i = some (ch, code, a) → listedRequest code = some (used, roles) →
    Passes used roles ch a s → argumentOut a i → exec i s = .next (answered ch .badArgument [] s)

/-! ### The parameter table -/

/-- LOOKUP and LOOKUP_EXACT by R15 to R17, with every flag written out; with them the entry that a key resolves to
(R11: the override in either condition, else the base, else none), the entry with exactly a key, and the marks of a
key (R13). -/
def Obligations.LookupAnswers : Prop :=
  (∀ (ch : ChannelNo) (a : Args) (s : State) (k : Key), Passes 4 everyRole ch a s → keyArg a = some k →
    (∀ (e : Entry) (b : Body), resolve s.slots k = some e → e.body = some b →
      exec (.lookup ch a) s = .next (answered ch .done
        (wordBytes b.value ++ halfBytes b.revision ++ [e.cls.byte] ++ halfBytes b.tolerance ++
          [bitsByte [decide (k.format ≠ 0 ∧ e.key.format = 0), b.low.isSome, b.high.isSome, e.partner.isSome,
            s.proposedMark k || s.proposedMark e.key, s.writingMark k || s.writingMark e.key]]) s)) ∧
    (∀ e : Entry, resolve s.slots k = some e → e.body = none →
      exec (.lookup ch a) s = .next (answered ch .damaged
        [0, 0, 0, 0, 0, 0, e.cls.byte, 0, 0,
          bitsByte [decide (k.format ≠ 0 ∧ e.key.format = 0), false, false, e.partner.isSome,
            s.proposedMark k || s.proposedMark e.key, s.writingMark k || s.writingMark e.key]] s)) ∧
    (resolve s.slots k = none →
      exec (.lookup ch a) s = .next (answered ch .noEntry
        [0, 0, 0, 0, 0, 0, 0, 0, 0,
          bitsByte [false, false, false, false, s.proposedMark k || s.proposedMark k.base,
            s.writingMark k || s.writingMark k.base]] s)) ∧
    (∀ (e : Entry) (b : Body), entryAt s.slots k = some e → e.body = some b →
      exec (.lookupExact ch a) s = .next (answered ch .done
        (wordBytes b.value ++ halfBytes b.revision ++ [e.cls.byte] ++ halfBytes b.tolerance ++
          [bitsByte [false, b.low.isSome, b.high.isSome, e.partner.isSome, s.proposedMark k,
            s.writingMark k]]) s)) ∧
    (∀ e : Entry, entryAt s.slots k = some e → e.body = none →
      exec (.lookupExact ch a) s = .next (answered ch .damaged
        [0, 0, 0, 0, 0, 0, e.cls.byte, 0, 0,
          bitsByte [false, false, false, e.partner.isSome, s.proposedMark k, s.writingMark k]] s)) ∧
    (entryAt s.slots k = none →
      exec (.lookupExact ch a) s = .next (answered ch .noEntry
        [0, 0, 0, 0, 0, 0, 0, 0, 0,
          bitsByte [false, false, false, false, s.proposedMark k, s.writingMark k]] s))) ∧
  (∀ (m : SlotMap Entry) (k : Key), KeysUnique m →
    (∀ e : Entry, entryAt m k = some e ↔ e ∈ m.map Prod.snd ∧ e.key = k) ∧
    (∀ e ∈ m.map Prod.snd, e.key = k → resolve m k = some e) ∧
    ((∀ e ∈ m.map Prod.snd, e.key ≠ k) →
      (k.format ≠ 0 → ∀ e ∈ m.map Prod.snd, e.key = { k with format := 0 } → resolve m k = some e) ∧
      (k.format = 0 ∨ (∀ e ∈ m.map Prod.snd, e.key ≠ { k with format := 0 }) → resolve m k = none))) ∧
  (∀ (s : State) (k : Key),
    (s.proposedMark k = true ↔
      ∃ p ∈ s.proposals, (∃ ms, p.state = .awaiting ms) ∧ ∃ c ∈ p.changes, c.key = k) ∧
    (s.writingMark k = true ↔
      ∃ p ∈ s.proposals, (∃ ch, p.state = .writing ch) ∧ ∃ c ∈ p.changes, c.key = k))

/-- READ_LIMITS by R18, in its two parts, and READ_DIGEST by R36. -/
def Obligations.LimitsAndDigestReadings : Prop :=
  (∀ (ch : ChannelNo) (a : Args) (s : State) (k : Key), Passes 5 everyRole ch a s → keyArg a = some k →
    (1 < (argByte a 4).toNat → exec (.readLimits ch a) s = .next (answered ch .badArgument [] s)) ∧
    (∀ (e : Entry) (b : Body), resolve s.slots k = some e → e.body = some b →
      (argByte a 4 = 0 → exec (.readLimits ch a) s = .next (answered ch .done
        ([lookupFlags s k] ++ wordBytes (b.low.getD 0) ++ wordBytes (b.high.getD 0)) s)) ∧
      (argByte a 4 = 1 → exec (.readLimits ch a) s = .next (answered ch .done
        ([lookupFlags s k] ++ halfBytes b.tolerance ++ numBytes ((e.partner.map Fin.val).getD 0) ++
          halfBytes b.revision) s))) ∧
    (∀ e : Entry, resolve s.slots k = some e → e.body = none →
      (argByte a 4 = 0 → exec (.readLimits ch a) s = .next (answered ch .damaged [lookupFlags s k] s)) ∧
      (argByte a 4 = 1 → exec (.readLimits ch a) s = .next (answered ch .damaged
        ([lookupFlags s k, 0, 0] ++ numBytes ((e.partner.map Fin.val).getD 0)) s))) ∧
    (resolve s.slots k = none → (argByte a 4).toNat ≤ 1 →
      exec (.readLimits ch a) s = .next (answered ch .noEntry [lookupFlags s k] s))) ∧
  (∀ (ch : ChannelNo) (a : Args) (s : State), Passes 2 everyRole ch a s →
    (∀ (st : StationNo) (f : FormatNo),
      stationOf (argByte a 0).toNat = some st → productFormatOf (argByte a 1).toNat = some f →
      exec (.readDigest ch a) s = .next (answered ch .done
        (wordBytes (s.pairOf st f).digest ++ numBytes (s.pairOf st f).count ++
          [bitsByte [false, false, false, false,
            s.proposals.any fun p => !p.isWriting && p.changes.any fun c => decide (c.key.station = st ∧
              (c.key.format = f ∨ (c.key.format = 0 ∧ entryAt s.slots ⟨st, f, c.key.param⟩ = none))),
            s.proposals.any fun p => p.isWriting && p.changes.any fun c => decide (c.key.station = st ∧
              (c.key.format = f ∨ (c.key.format = 0 ∧ entryAt s.slots ⟨st, f, c.key.param⟩ = none)))]]) s)) ∧
    ((argByte a 0 = 0 ∨ 32 < (argByte a 0).toNat ∨ argByte a 1 = 0 ∨ 15 < (argByte a 1).toNat) →
      exec (.readDigest ch a) s = .next (answered ch .badArgument [] s)))

/-- CHECK_VALUE: the first step of R19 that applies gives the verdict, and the answer is that of R20. Where nothing
resolves, the flags byte shows the base key's marks too, as R16 has it for LOOKUP: the model's choice (log entry 35).
-/
def Obligations.CheckValueSteps : Prop :=
  ∀ (ch : ChannelNo) (a : Args) (s : State) (k : Key), Passes 8 everyRole ch a s → keyArg a = some k →
    (resolve s.slots k = none → exec (.checkValue ch a) s = .next (answered ch .done
      [0x05, lookupFlags s k, 0, 0] s)) ∧
    (∀ e : Entry, resolve s.slots k = some e → e.body = none → exec (.checkValue ch a) s = .next (answered ch .done
      [0x06, lookupFlags s k, 0, 0] s)) ∧
    (∀ (e : Entry) (b : Body), resolve s.slots k = some e → e.body = some b →
      ((∃ l, b.low = some l ∧ (argWord a 4).toInt < l.toInt) →
        exec (.checkValue ch a) s = .next (answered ch .done
          ([0x01, lookupFlags s k] ++ halfBytes b.revision) s)) ∧
      ((∀ l, b.low = some l → l.toInt ≤ (argWord a 4).toInt) →
        ((∃ h, b.high = some h ∧ h.toInt < (argWord a 4).toInt) →
          exec (.checkValue ch a) s = .next (answered ch .done
            ([0x02, lookupFlags s k] ++ halfBytes b.revision) s)) ∧
        ((∀ h, b.high = some h → (argWord a 4).toInt ≤ h.toInt) →
          (b.tolerance.toNat < ((argWord a 4).toInt - b.value.toInt).natAbs →
            exec (.checkValue ch a) s = .next (answered ch .done
              ([0x03, lookupFlags s k] ++ halfBytes b.revision) s)) ∧
          (((argWord a 4).toInt - b.value.toInt).natAbs ≤ b.tolerance.toNat →
            exec (.checkValue ch a) s = .next (answered ch .done
              ([0x04, lookupFlags s k] ++ halfBytes b.revision) s)))))

/-- LIST_ENTRIES and NEXT_ENTRY by R22 and R23: the smallest matching key, or END. A key matches where it has the
filters' station and format, ALL matching every one (R21), and keys are in order by station, then format, then
parameter (R22). -/
def Obligations.EntryWalk : Prop :=
  (∀ (ch : ChannelNo) (a : Args) (s : State),
    (∀ (st : Option StationNo) (f : Option FormatNo), Passes 2 everyRole ch a s →
      stationFilterOf (argByte a 0).toNat = some st → formatFilterOf (argByte a 1).toNat = some f →
      ((∀ x ∈ s.slots, x.2.key.passes st f = false) →
        exec (.listEntries ch a) s =
          .next (answered ch .listEnd [] (s.setCursor ch (.entries st f none)))) ∧
      (∀ e : Entry, e ∈ s.slots.map Prod.snd → e.key.passes st f = true →
        (∀ x ∈ s.slots, x.2.key.passes st f = true → x.2 = e ∨ e.key.rank < x.2.key.rank) →
        exec (.listEntries ch a) s = .next (answered ch .done
          (keyBytes e.key ++ [e.conditionByte] ++
            numBytes (s.slots.filter fun x => x.2.key.passes st f).length)
          (s.setCursor ch (.entries st f (some e.key)))))) ∧
    (Passes 0 everyRole ch a s →
      (∀ (st : Option StationNo) (f : Option FormatNo) (last : Option Key),
        (sel s.channels ch).cursor = .entries st f last →
        ((∀ x ∈ s.slots, x.2.key.passes st f = true → ∃ l, last = some l ∧ x.2.key.rank ≤ l.rank) →
          exec (.nextEntry ch a) s = .next (answered ch .listEnd [] s)) ∧
        (∀ e : Entry, e ∈ s.slots.map Prod.snd → e.key.passes st f = true →
          (∀ l, last = some l → l.rank < e.key.rank) →
          (∀ x ∈ s.slots, x.2.key.passes st f = true → (∀ l, last = some l → l.rank < x.2.key.rank) →
            x.2 = e ∨ e.key.rank < x.2.key.rank) →
          exec (.nextEntry ch a) s = .next (answered ch .done (keyBytes e.key ++ [e.conditionByte])
            (s.setCursor ch (.entries st f (some e.key)))))) ∧
      ((sel s.channels ch).cursor = .noCursor →
        exec (.nextEntry ch a) s = .next (answered ch .noCursor [] s)) ∧
      (∀ last, (sel s.channels ch).cursor = .proposals last →
        exec (.nextEntry ch a) s = .next (answered ch .noCursor [] s)))) ∧
  (∀ (k : Key) (st : Option StationNo) (f : Option FormatNo), k.passes st f = true ↔
    (∀ x, st = some x → k.station = x) ∧ (∀ y, f = some y → k.format = y)) ∧
  (∀ k l : Key, k.rank < l.rank ↔ k.station < l.station ∨
    (k.station = l.station ∧ (k.format < l.format ∨ (k.format = l.format ∧ k.param < l.param))))

/-! ### The digest table -/

/-- R26: the term of a parameter with a value, in unsigned arithmetic modulo 2^32, and the rows of Table 14.
-/
def Obligations.DigestTermFormula : Prop :=
  (∀ (p : ParamNo) (v : Word), (digestTerm p v).toNat = (3 * v.toNat + 65537 * p.val + 1) % 2 ^ 32) ∧
  (∀ (p : ParamNo) (v : Word), ((digestTerm p v).toNat : Int) = (3 * v.toInt + 65537 * p.val + 1) % 2 ^ 32) ∧
  digestTerm 0 0 = 1 ∧ digestTerm 10 (-5) = 655356 ∧ digestTerm 120 5000 = 7879441 ∧
  digestTerm 120 3300 = 7874341 ∧ digestTerm 121 1850 = 7935528 ∧ digestTerm 1023 2147483647 = 2214527997

/-- R27 and R35: the pair computed whole is the sum of the terms, and the number, of the parameters 0-1023
whose resolved entry is ACTIVE. And the pairs that the digest table holds are those computed whole from a table
exactly where every pair that is read, of a station in a product format, is (R27, R36). -/
def Obligations.ExpectedPairIsSum : Prop :=
  (∀ (m : SlotMap Entry) (st : StationNo) (f : FormatNo), KeysUnique m →
    (computePair m st f).digest =
      ((List.finRange 1024).map fun p =>
        match (resolve m ⟨st, f, p⟩).bind Entry.body with
        | none => 0
        | some b => digestTerm p b.value).sum ∧
    (computePair m st f).count =
      ((List.finRange 1024).filter fun p => ((resolve m ⟨st, f, p⟩).bind Entry.body).isSome).length) ∧
  (∀ (s : State) (m : SlotMap Entry), s.digests = rebuildDigests m ↔
    ∀ (st : StationNo) (f : FormatNo), f ≠ 0 → s.pairOf st f = computePair m st f)

/-- R27 with R28 and R33: a completion, whatever its slot results, leaves every pair the one computed whole
from the table it leaves, where it was so before. The premises say that keys are unique and that the item's
plans are for the slots their keys stand in (R79). -/
def Obligations.CompletionKeepsDigests : Prop :=
  ∀ (o : SlotOutcome) (s : State) (ch : ChannelNo) (number : Nat) (plans : List SlotPlan) (results : List Bool),
    s.writer = some (.proposal ch number plans results) → results.length + 1 = plans.length →
    workingWf s.slots = true → KeysUnique s.slots → DigestLaw s →
    (plans.map SlotPlan.slot).Nodup → (plans.map SlotPlan.key).Nodup →
    (∀ d ∈ plans, d.slot < 2048 ∧ ∀ x ∈ s.slots, x.1 = d.slot ↔ x.2.key = d.key) →
    ∃ t, exec (.proposalItemCompletion o) s = .next t ∧ KeysUnique t.slots ∧ DigestLaw t

/-! ### Drafts and their submission -/

/-- R40: DRAFT_BEGIN makes the draft OPEN and empty, DRAFT_DISCARD makes it NONE, in either state. -/
def Obligations.DraftBeginDiscard : Prop :=
  ∀ (ch : ChannelNo) (a : Args) (s : State), Passes 0 [.operator, .engineer] ch a s →
    exec (.draftBegin ch a) s = .next (answered ch .done [0] (s.setDraft ch (some []))) ∧
    exec (.draftDiscard ch a) s = .next (answered ch .done [0] (s.setDraft ch none))

/-- DRAFT_SET, DRAFT_CREATE and DRAFT_RETIRE by the checks of R41, in their order. -/
def Obligations.DraftAdds : Prop :=
  ∀ (ch : ChannelNo) (a : Args) (s : State) (i : Instr) (used : Nat) (c : Change),
    ((i = .draftSet ch a ∧ used = 10 ∧ ∃ k, keyArg a = some k ∧
        c = Change.set k (argHalf a 4) (argWord a 6) .unchanged .unchanged none) ∨
      (i = .draftCreate ch a ∧ used = 9 ∧ ∃ k cls, keyArg a = some k ∧ classOf (argByte a 8).toNat = some cls ∧
        c = Change.create k (argWord a 4) .unchanged .unchanged none cls none) ∨
      (i = .draftRetire ch a ∧ used = 6 ∧ ∃ k, keyArg a = some k ∧ c = Change.retire k (argHalf a 4))) →
    Passes used [.operator, .engineer] ch a s →
    (s.draft ch = none → exec i s = .next (answered ch .noDraft [] s)) ∧
    (∀ l, s.draft ch = some l →
      (2 ≤ l.length → exec i s = .next (answered ch .draftFull [] s)) ∧
      (l.length < 2 → c.key ∈ keysOf l → exec i s = .next (answered ch .duplicateKey [] s)) ∧
      (l.length < 2 → c.key ∉ keysOf l → exec i s =
        .next (answered ch .done [byteOf (l.length + 1)] (s.setDraft ch (some (l ++ [c]))))))

/-- DRAFT_BOUNDS, DRAFT_TOLERANCE and DRAFT_PARTNER by the checks of R42 and R43: the current change, the one
added last, is amended in its field. -/
def Obligations.DraftAmends : Prop :=
  ∀ (ch : ChannelNo) (a : Args) (s : State),
    (∀ (l : List Change) (low high : BoundField), Passes 9 [.operator, .engineer] ch a s →
      boundOf ((argByte a 0).toNat % 4) (argWord a 1) = some low →
      boundOf ((argByte a 0).toNat / 4) (argWord a 5) = some high →
      (s.draft ch = none → exec (.draftBounds ch a) s = .next (answered ch .noDraft [] s)) ∧
      (s.draft ch = some [] → exec (.draftBounds ch a) s = .next (answered ch .noChange [] s)) ∧
      (∀ k e v lo hi t, s.draft ch = some (l ++ [Change.set k e v lo hi t]) →
        exec (.draftBounds ch a) s = .next (answered ch .done [byteOf (l.length + 1)]
          (s.setDraft ch (some (l ++ [Change.set k e v low high t]))))) ∧
      (∀ k v lo hi t cls p, s.draft ch = some (l ++ [Change.create k v lo hi t cls p]) →
        exec (.draftBounds ch a) s = .next (answered ch .done [byteOf (l.length + 1)]
          (s.setDraft ch (some (l ++ [Change.create k v low high t cls p]))))) ∧
      (∀ k e, s.draft ch = some (l ++ [Change.retire k e]) →
        exec (.draftBounds ch a) s = .next (answered ch .badArgument [] s))) ∧
    (∀ l : List Change, Passes 2 [.operator, .engineer] ch a s →
      (s.draft ch = none → exec (.draftTolerance ch a) s = .next (answered ch .noDraft [] s)) ∧
      (s.draft ch = some [] → exec (.draftTolerance ch a) s = .next (answered ch .noChange [] s)) ∧
      (∀ k e v lo hi t, s.draft ch = some (l ++ [Change.set k e v lo hi t]) →
        exec (.draftTolerance ch a) s = .next (answered ch .done [byteOf (l.length + 1)]
          (s.setDraft ch (some (l ++ [Change.set k e v lo hi (some (argHalf a 0))]))))) ∧
      (∀ k v lo hi t cls p, s.draft ch = some (l ++ [Change.create k v lo hi t cls p]) →
        exec (.draftTolerance ch a) s = .next (answered ch .done [byteOf (l.length + 1)]
          (s.setDraft ch (some (l ++ [Change.create k v lo hi (some (argHalf a 0)) cls p]))))) ∧
      (∀ k e, s.draft ch = some (l ++ [Change.retire k e]) →
        exec (.draftTolerance ch a) s = .next (answered ch .badArgument [] s))) ∧
    (∀ (l : List Change) (q : ParamNo), Passes 2 [.operator, .engineer] ch a s →
      paramOf (argHalf a 0).toNat = some q →
      (s.draft ch = none → exec (.draftPartner ch a) s = .next (answered ch .noDraft [] s)) ∧
      (s.draft ch = some [] → exec (.draftPartner ch a) s = .next (answered ch .noChange [] s)) ∧
      (∀ k v lo hi t cls p, s.draft ch = some (l ++ [Change.create k v lo hi t cls p]) → q ≠ k.param →
        exec (.draftPartner ch a) s = .next (answered ch .done [byteOf (l.length + 1)]
          (s.setDraft ch (some (l ++ [Change.create k v lo hi t cls (some q)]))))) ∧
      (∀ c, s.draft ch = some (l ++ [c]) → (c.kind ≠ .create ∨ q = c.key.param) →
        exec (.draftPartner ch a) s = .next (answered ch .badArgument [] s)))

/-- DRAFT_SUBMIT refused (R44, R45, R39): nothing but the channel's answer changes. An empty draft answers
NO_DRAFT; an OPERATOR's change 0 that is no value-only SET of a TUNABLE entry DENIED; a FIXED change 0 with
the release closed RELEASE_CLOSED; and any failing check its own answer. DRAFT_SUBMIT accepted (R50): the
proposal joins the end of the list with the fields R50 gives, the draft becomes NONE, the answer carries the
number, the required approver and the lifetime, and PROPOSALS is set on every channel whose reset is not held
(R183). The required approver is that of R54, and the number the first after the last one assigned, 255 followed
by 1, that no open proposal holds (R52). -/
def Obligations.DraftSubmission : Prop :=
  (∀ (ch : ChannelNo) (a : Args) (s : State), Passes 0 [.operator, .engineer] ch a s →
    (s.draft ch = none ∨ s.draft ch = some [] →
      exec (.draftSubmit ch a) s = .next (answered ch .noDraft [] s)) ∧
    (∀ (c : Change) (rest : List Change), s.draft ch = some (c :: rest) →
      (s.role ch = .operator → ¬ (c.valueOnly = true ∧ classAt s.slots c = some .tunable) →
        exec (.draftSubmit ch a) s = .next (answered ch .denied [1, 0, 0] s)) ∧
      (s.role ch = .engineer → classAt s.slots c = some .fixed → s.release = none →
        exec (.draftSubmit ch a) s = .next (answered ch .releaseClosed [0] s)) ∧
      (∀ (code : AnswerCode) (result : List Byte),
        submissionChecks s (s.role ch) (c :: rest) = some (.now code result) →
        exec (.draftSubmit ch a) s = .next (answered ch code result s)))) ∧
  (∀ (ch : ChannelNo) (a : Args) (s : State) (c : Change) (rest : List Change),
    Passes 0 [.operator, .engineer] ch a s → s.draft ch = some (c :: rest) →
    submissionChecks s (s.role ch) (c :: rest) = none →
    exec (.draftSubmit ch a) s = .next (answered ch .done
      ([byteOf s.newNumber, (requiredApprover s.slots (c :: rest)).byte] ++ numBytes s.access.lifetime)
      (State.raise
        (State.setDraft
          { s with
            proposals := s.proposals ++
              [{ number := s.newNumber, stamp := s.nextStamp, proposer := ch, role := s.role ch,
                 changes := c :: rest, required := requiredApprover s.slots (c :: rest),
                 state := .awaiting (s.access.lifetime * 1000) }]
            lastNumber := s.newNumber
            nextStamp := s.nextStamp + 1 } ch none)
        ⟨true, false, false, false, false⟩))) ∧
  (∀ (m : SlotMap Entry) (l : List Change),
    ((∀ c ∈ l, c.valueOnly = true ∧ classAt m c = some .tunable) → requiredApprover m l = .engineerOrQuality) ∧
    ((∃ c ∈ l, ¬ (c.valueOnly = true ∧ classAt m c = some .tunable)) → requiredApprover m l = .qualityOnly)) ∧
  (∀ c : Change, c.valueOnly = true ↔ ∃ k x v, c = .set k x v .unchanged .unchanged none) ∧
  (∀ (s : State) (n : Nat), s.lastNumber ≤ 255 → n ≤ 15 →
    (∀ j < n, ∃ p ∈ s.proposals, p.number = (s.lastNumber + j) % 255 + 1) →
    (∀ p ∈ s.proposals, p.number ≠ (s.lastNumber + n) % 255 + 1) →
    s.newNumber = (s.lastNumber + n) % 255 + 1)

/-- The checks of submission (R44 to R49): of the faults of checks 2 to 8 the one of the lowest check, and in it of
the lowest change, gives the answer with its result; with none of them the room of the table (check 9) and then of
the list (check 10) decide. And what changes that pass satisfy: R46, existence and revision; R47, partners changed
together; R48 with R5, bounds in order and the value within them, a SET of a DAMAGED entry stating its whole body;
R49, no key in an open proposal; R45, no FIXED change with the release closed. -/
def Obligations.SubmittedChangesInOrder : Prop :=
  (∀ (s : State) (role : Role) (l : List Change), submissionChecks s role l = none → ∀ c ∈ l,
    (∀ low high v, c.effective s.slots = some (low, high, v) →
      (∀ lo hi, low = some lo → high = some hi → lo.toInt ≤ hi.toInt) ∧
      (∀ lo, low = some lo → lo.toInt ≤ v.toInt) ∧ (∀ hi, high = some hi → v.toInt ≤ hi.toInt)) ∧
    (damagedAt s.slots c.key = true → c.wholeBody = true) ∧
    (c.kind = .create ↔ entryAt s.slots c.key = none) ∧
    (∀ e, c.expected = some e → e = revisionAt s.slots c.key) ∧
    (∀ q, partnerOf s.slots c = some q → ∃ d ∈ l, d.key = { c.key with param := q } ∧ d.kind = c.kind ∧
      (c.kind = .create → d.named = some c.key.param)) ∧
    (∀ p ∈ s.proposals, c.key ∉ keysOf p.changes) ∧
    (classAt s.slots c = some .fixed → s.release ≠ none)) ∧
  (∀ (s : State) (role : Role) (l : List Change), ProposalLaw s → (keysOf l).Nodup →
    (∀ (n i : Nat) (c : Change) (code : AnswerCode) (result : List Byte),
      l[i]? = some c → SubmitFault s role l n i c code result →
      (∀ (m j : Nat) (d : Change) (code' : AnswerCode) (result' : List Byte),
        l[j]? = some d → SubmitFault s role l m j d code' result' → n < m ∨ (n = m ∧ i ≤ j)) →
      submissionChecks s role l = some (.now code result)) ∧
    ((∀ (m j : Nat) (d : Change) (code : AnswerCode) (result : List Byte),
        l[j]? = some d → ¬ SubmitFault s role l m j d code result) →
      (s.submitRoom < createCount l →
        submissionChecks s role l = some (.now .tableFull (numBytes s.submitRoom))) ∧
      (createCount l ≤ s.submitRoom → 16 ≤ s.proposals.length →
        submissionChecks s role l = some (.now .listFull [])) ∧
      (createCount l ≤ s.submitRoom → s.proposals.length < 16 → submissionChecks s role l = none))) ∧
  (∀ s : State, s.submitRoom =
    2048 - s.slots.length -
      (s.proposals.map fun p => (p.changes.filter fun c => decide (c.kind = .create)).length).sum)

/-! ### Proposals -/

/-- APPROVE accepted (R66 to R69): the proposal becomes WRITING with its approving channel, its item joins the
write queue, the channel stays WORKING without an answer, and a free writer takes its next item. -/
def Obligations.ApproveAccepted : Prop :=
  ∀ (ch : ChannelNo) (a : Args) (s : State) (p : Proposal),
    Passes 1 [.engineer, .quality] ch a s → (argByte a 0).toNat ≠ 0 →
    s.proposal (argByte a 0).toNat = some p → p.isWriting = false →
    (s.role ch = .quality ∨ p.required = .engineerOrQuality) → ch ≠ p.proposer →
    (∀ c ∈ p.changes, classAt s.slots c = some .fixed → s.release ≠ none) → s.degraded = false →
    createCount p.changes ≤ s.approvalRoom → WriteItem.proposal ch (argByte a 0).toNat ∉ s.queue →
    exec (.approve ch a) s = .next (takeItem
      (State.onChannel
        { s with
          proposals := s.proposals.map fun q =>
            if q.number = (argByte a 0).toNat then { q with state := .writing ch } else q
          queue := s.queue ++ [.proposal ch (argByte a 0).toNat] } ch fun c =>
        { c with handshake := .working true ⟨0x30, a⟩, armed := false,
                 answer := ⟨0, Vector.replicate 10 0⟩ }))

/-- APPROVE refused, by the checks of Table 28 in their order (R66 to R68). The room of check 8 is the number of free
slots, 2048 less the entries, less the CREATE changes of the WRITING proposals (R68). -/
def Obligations.ApproveRefusals : Prop :=
  (∀ (ch : ChannelNo) (a : Args) (s : State), Passes 1 [.engineer, .quality] ch a s →
    (argByte a 0 = 0 → exec (.approve ch a) s = .next (answered ch .badArgument [] s)) ∧
    (argByte a 0 ≠ 0 → s.proposal (argByte a 0).toNat = none →
      exec (.approve ch a) s = .next (answered ch .noProposal [] s)) ∧
    (∀ p, argByte a 0 ≠ 0 → s.proposal (argByte a 0).toNat = some p →
      (p.isWriting = true → exec (.approve ch a) s = .next (answered ch .notAwaiting [] s)) ∧
      (p.isWriting = false →
        (s.role ch = .engineer ∧ p.required = .qualityOnly →
          exec (.approve ch a) s = .next (answered ch .denied [2, 2] s)) ∧
        ((s.role ch = .quality ∨ p.required = .engineerOrQuality) →
          (ch = p.proposer → exec (.approve ch a) s = .next (answered ch .selfApproval [] s)) ∧
          (∀ c rest, p.changes = c :: rest → ch ≠ p.proposer → classAt s.slots c = some .fixed →
            s.release = none → exec (.approve ch a) s = .next (answered ch .releaseClosed [0] s)) ∧
          (∀ c d rest, p.changes = c :: d :: rest → ch ≠ p.proposer → classAt s.slots c ≠ some .fixed →
            classAt s.slots d = some .fixed → s.release = none →
            exec (.approve ch a) s = .next (answered ch .releaseClosed [1] s)) ∧
          (ch ≠ p.proposer → (∀ c ∈ p.changes, classAt s.slots c = some .fixed → s.release ≠ none) →
            (s.degraded = true → exec (.approve ch a) s = .next (answered ch .storeFault [] s)) ∧
            (s.degraded = false → s.approvalRoom < createCount p.changes →
              exec (.approve ch a) s =
                .next (answered ch .tableFull (numBytes s.approvalRoom) s))))))) ∧
  (∀ s : State, s.approvalRoom =
    2048 - s.slots.length -
      ((s.proposals.filter Proposal.isWriting).map fun p =>
        (p.changes.filter fun c => decide (c.kind = .create)).length).sum) ∧
  (∀ l : List Change, createCount l = (l.filter fun c => decide (c.kind = .create)).length) ∧
  (∀ p : Proposal, p.isWriting = true ↔ ∃ ch, p.state = .writing ch)

/-- REJECT and WITHDRAW (R58, R59, R61) with their checks in order, and the expiry (R56): the record is deleted,
PROPOSALS is set on every channel whose reset is not held, and nothing else changes but the answering channel. An
expiry that is not due, or of a proposal that is WRITING or not there, does not occur; that it is due within the
10 ms of R56 before its time is read from that accuracy (log entry 5). -/
def Obligations.ProposalRemovals : Prop :=
  (∀ (ch : ChannelNo) (a : Args) (s : State), argByte a 0 ≠ 0 →
    (s.proposal (argByte a 0).toNat = none →
      (Passes 1 [.engineer, .quality] ch a s →
        exec (.reject ch a) s = .next (answered ch .noProposal [] s)) ∧
      (Passes 1 [.operator, .engineer, .quality] ch a s →
        exec (.withdraw ch a) s = .next (answered ch .noProposal [] s))) ∧
    (∀ p, s.proposal (argByte a 0).toNat = some p → p.isWriting = true →
      (Passes 1 [.engineer, .quality] ch a s →
        exec (.reject ch a) s = .next (answered ch .notAwaiting [] s)) ∧
      (Passes 1 [.operator, .engineer, .quality] ch a s →
        exec (.withdraw ch a) s = .next (answered ch .notAwaiting [] s))) ∧
    (∀ p, s.proposal (argByte a 0).toNat = some p → p.isWriting = false →
      (Passes 1 [.engineer, .quality] ch a s →
        (s.role ch = .engineer → p.required = .qualityOnly →
          exec (.reject ch a) s = .next (answered ch .denied [2, 2] s)) ∧
        (s.role ch = .quality ∨ p.required = .engineerOrQuality →
          exec (.reject ch a) s = .next (answered ch .done [] (State.raise
            { s with proposals := s.proposals.filter fun q => q.number != p.number }
            ⟨true, false, false, false, false⟩)))) ∧
      (Passes 1 [.operator, .engineer, .quality] ch a s →
        (ch ≠ p.proposer → s.role ch ≠ .quality →
          exec (.withdraw ch a) s = .next (answered ch .denied [(s.role ch).byte] s)) ∧
        (ch = p.proposer ∨ s.role ch = .quality →
          exec (.withdraw ch a) s = .next (answered ch .done [] (State.raise
            { s with proposals := s.proposals.filter fun q => q.number != p.number }
            ⟨true, false, false, false, false⟩)))))) ∧
  (∀ (s : State) (p : Proposal) (ms : Nat), s.proposal p.number = some p → p.state = .awaiting ms →
    (ms ≤ 10 → exec (.proposalExpiry p.number) s = .next (State.raise
      { s with proposals := s.proposals.filter fun q => q.number != p.number }
      ⟨true, false, false, false, false⟩)) ∧
    (10 < ms → exec (.proposalExpiry p.number) s = .next s)) ∧
  (∀ (s : State) (n : Nat), (s.proposal n = none ∨ ∃ p ch, s.proposal n = some p ∧ p.state = .writing ch) →
    exec (.proposalExpiry n) s = .next s)

/-- LIST_PROPOSALS and NEXT_PROPOSAL (R62, R63), on a list in stamp order (R51). READ_PROPOSAL (R64): the
fields of each part of Table 23, for each kind of change; in AWAITING no approving channel and the seconds that remain,
rounded up (R56), in WRITING the approving channel and no seconds. -/
def Obligations.ProposalReadings : Prop :=
  (∀ (ch : ChannelNo) (a : Args) (s : State), Passes 0 everyRole ch a s →
    (s.proposals = [] → exec (.listProposals ch a) s =
      .next (answered ch .listEnd [] (s.setCursor ch (.proposals none)))) ∧
    (∀ p rest, s.proposals = p :: rest → exec (.listProposals ch a) s = .next (answered ch .done
      [byteOf p.number, p.state.byte, p.required.byte, byteOf (rest.length + 1)]
      (s.setCursor ch (.proposals (some p.stamp))))) ∧
    (∀ (before after : List Proposal) (p : Proposal) (last : Option Nat),
      (sel s.channels ch).cursor = .proposals last → s.proposals = before ++ p :: after →
      (∀ q ∈ before, ∃ n, last = some n ∧ q.stamp ≤ n) → (∀ n, last = some n → n < p.stamp) →
      exec (.nextProposal ch a) s = .next (answered ch .done [byteOf p.number, p.state.byte, p.required.byte]
        (s.setCursor ch (.proposals (some p.stamp))))) ∧
    (∀ last : Option Nat, (sel s.channels ch).cursor = .proposals last →
      (∀ q ∈ s.proposals, ∃ n, last = some n ∧ q.stamp ≤ n) →
      exec (.nextProposal ch a) s = .next (answered ch .listEnd [] s)) ∧
    ((∀ last, (sel s.channels ch).cursor ≠ .proposals last) →
      exec (.nextProposal ch a) s = .next (answered ch .noCursor [] s))) ∧
  (∀ (ch : ChannelNo) (a : Args) (s : State), Passes 3 everyRole ch a s → argByte a 0 ≠ 0 →
    (argByte a 1).toNat ≤ 1 → (argByte a 2).toNat ≤ 3 → s.proposal (argByte a 0).toNat = none →
    exec (.readProposal ch a) s = .next (answered ch .noProposal [] s)) ∧
  (∀ (ch : ChannelNo) (a : Args) (s : State) (p : Proposal) (c : Change), Passes 3 everyRole ch a s →
    (argByte a 0).toNat ≠ 0 → s.proposal (argByte a 0).toNat = some p →
    (argByte a 1 = 1 → p.changes.length ≤ 1 →  (argByte a 2).toNat ≤ 3 →
      exec (.readProposal ch a) s = .next (answered ch .listEnd [] s)) ∧
    ((argByte a 1).toNat ≤ 1 → p.changes[(argByte a 1).toNat]? = some c →
      (argByte a 2 = 0 →
        (∀ ms, p.state = .awaiting ms → exec (.readProposal ch a) s = .next (answered ch .done
          ([c.kind.byte, 1, p.required.byte, byteOf (p.proposer.val + 1), p.role.byte, 0,
            byteOf p.changes.length] ++ numBytes ((ms + 999) / 1000)) s)) ∧
        (∀ approver, p.state = .writing approver → exec (.readProposal ch a) s = .next (answered ch .done
          [c.kind.byte, 2, p.required.byte, byteOf (p.proposer.val + 1), p.role.byte, byteOf (approver.val + 1),
            byteOf p.changes.length, 0, 0] s))) ∧
      (∀ k e v low high t, c = Change.set k e v low high t →
        (argByte a 2 = 1 → exec (.readProposal ch a) s = .next (answered ch .done
          ([1] ++ keyBytes k ++ halfBytes e ++ [0, 0, 0]) s)) ∧
        (argByte a 2 = 2 → exec (.readProposal ch a) s = .next (answered ch .done
          ([1] ++ wordBytes v ++ [bitsByte [t.isSome, false]] ++ halfBytes (t.getD 0)) s)) ∧
        (argByte a 2 = 3 → exec (.readProposal ch a) s = .next (answered ch .done
          ([1, byteOf (low.selector + 4 * high.selector)] ++ wordBytes low.shown ++ wordBytes high.shown) s))) ∧
      (∀ k v low high t cls q, c = Change.create k v low high t cls q →
        (argByte a 2 = 1 → exec (.readProposal ch a) s = .next (answered ch .done
          ([2] ++ keyBytes k ++ [0, 0, cls.byte] ++ numBytes ((q.map Fin.val).getD 0)) s)) ∧
        (argByte a 2 = 2 → exec (.readProposal ch a) s = .next (answered ch .done
          ([2] ++ wordBytes v ++ [bitsByte [t.isSome, q.isSome]] ++ halfBytes (t.getD 0)) s)) ∧
        (argByte a 2 = 3 → exec (.readProposal ch a) s = .next (answered ch .done
          ([2, byteOf (low.selector + 4 * high.selector)] ++ wordBytes low.shown ++ wordBytes high.shown) s))) ∧
      (∀ k e, c = Change.retire k e →
        (argByte a 2 = 1 → exec (.readProposal ch a) s = .next (answered ch .done
          ([3] ++ keyBytes k ++ halfBytes e ++ [0, 0, 0]) s)) ∧
        (argByte a 2 = 2 ∨ argByte a 2 = 3 → exec (.readProposal ch a) s = .next (answered ch .done [3] s)))))

/-- SET_LIFETIME (R57) and SET_ROLE_CODE (R159): the setting takes the new value at once, and a write of the
module record is asked for. -/
def Obligations.ModuleRecordSettings : Prop :=
  ∀ (ch : ChannelNo) (a : Args) (s : State),
    (Passes 2 [.quality] ch a s →
      (60 ≤ (argHalf a 0).toNat ∧ (argHalf a 0).toNat ≤ 3600 →
        exec (.setLifetime ch a) s = .next (answered ch .done (halfBytes (argHalf a 0))
          (enqueue .moduleRec { s with access := { s.access with lifetime := (argHalf a 0).toNat } }))) ∧
      ((argHalf a 0).toNat < 60 ∨ 3600 < (argHalf a 0).toNat →
        exec (.setLifetime ch a) s = .next (answered ch .badArgument [] s))) ∧
    (Passes 5 [.quality] ch a s →
      (∀ code : Option Nat,
        ((argWord a 1 = 0xFFFFFFFF ∧ code = none) ∨
          ((argWord a 1).toNat ≤ 999999 ∧ code = some (argWord a 1).toNat)) →
        (argByte a 0 = 1 → exec (.setRoleCode ch a) s = .next (answered ch .done [1, byteOf code.isSome.toNat]
          (enqueue .moduleRec { s with access := { s.access with operator := code } }))) ∧
        (argByte a 0 = 2 → exec (.setRoleCode ch a) s = .next (answered ch .done [2, byteOf code.isSome.toNat]
          (enqueue .moduleRec { s with access := { s.access with engineer := code } }))) ∧
        (argByte a 0 = 3 → exec (.setRoleCode ch a) s = .next (answered ch .done [3, byteOf code.isSome.toNat]
          (enqueue .moduleRec { s with access := { s.access with quality := code } })))) ∧
      (argByte a 0 = 0 ∨ 3 < (argByte a 0).toNat ∨
          (999999 < (argWord a 1).toNat ∧ argWord a 1 ≠ 0xFFFFFFFF) →
        exec (.setRoleCode ch a) s = .next (answered ch .badArgument [] s)))

/-! ### The write queue and the store writer -/

/-- R75 and R77: an item joins the queue unless it is queued; a writer that is busy goes on, and a free one
takes the first item in the writer's order (the module record, sections, stations, then proposals by their stamps),
with the content the record has at that moment (R78), or with the slot writes formed from the proposal's changes and
the table at that moment (R79). That an idle writer takes an item when it joins is read from R77 (log entry 11). -/
def Obligations.WriterOrder : Prop :=
  ∀ (s : State) (i : WriteItem),
    (i ∈ s.queue → enqueue i s = s) ∧
    (∀ j, i ∉ s.queue → s.writer = some j → enqueue i s = { s with queue := s.queue ++ [i] }) ∧
    (s.writer = none → s.queue = [] →
      enqueue i s = { s with queue := [], writer := formJob s i }) ∧
    (s.writer = none → i ∈ s.queue → (∀ j ∈ s.queue, j = i ∨ itemRank s.proposals i < itemRank s.proposals j) →
      takeItem s = { s with queue := s.queue.erase i, writer := formJob s i }) ∧
    formJob s .moduleRec = some (.moduleRec s.access) ∧
    (∀ n, formJob s (.sect n) = some (.sect n (sel s.sections n).persist)) ∧
    (∀ n, formJob s (.station n) = some (.station n (sel s.stations n).persist)) ∧
    (∀ ch p plans, s.proposal p.number = some p →
      planSlots s.slots p.changes (s.slots.map Prod.fst) p.changes = some plans →
      formJob s (.proposal ch p.number) = some (.proposal ch p.number plans [])) ∧
    (∀ (l : List Proposal) (p q : Proposal) (ch ch' : ChannelNo), (l.map Proposal.number).Nodup → p ∈ l → q ∈ l →
      p.stamp < q.stamp → itemRank l (.proposal ch p.number) < itemRank l (.proposal ch' q.number)) ∧
    (∀ (l : List Proposal) (x y : SectionNo) (u v : StationNo) (ch : ChannelNo) (n : Nat),
      itemRank l .moduleRec < itemRank l (.sect x) ∧ itemRank l (.sect x) < itemRank l (.station u) ∧
      itemRank l (.station u) < itemRank l (.proposal ch n) ∧
      (x < y → itemRank l (.sect x) < itemRank l (.sect y)) ∧
      (u < v → itemRank l (.station u) < itemRank l (.station v)))

/-- RECORD_WRITE_COMPLETION (R78, R85): the slot holds the content taken, or what the failure left; a failure
makes the store DEGRADED and sets STORE where it was NORMAL; the writer takes its next item; nothing else
changes. SLOT_WRITE_COMPLETION (R80, R81): of an item with two slots, the first write ends, and its result is
kept for the completion; nothing but the slot and the writer changes. That a failed write leaves in each part it
concerns the old content, the new content or a failed check, as its operand says, is the model's choice (log entry
9). -/
def Obligations.WriteCompletions : Prop :=
  (∀ (s : State) (j : Job), s.writer = some j →
    (∀ c, j = .moduleRec c →
      exec (.recordWriteCompletion .verified) s = .next (takeItem
        { s with array := { s.array with moduleRec := .valid c }, writer := none }) ∧
      exec (.recordWriteCompletion (.failed .torn)) s = .next (takeItem (State.raise
        { s with array := { s.array with moduleRec := .failed }, writer := none, degraded := true }
        ⟨false, false, false, false, !s.degraded⟩)) ∧
      exec (.recordWriteCompletion (.failed .old)) s = .next (takeItem (State.raise
        { s with writer := none, degraded := true } ⟨false, false, false, false, !s.degraded⟩)) ∧
      exec (.recordWriteCompletion (.failed .new)) s = .next (takeItem (State.raise
        { s with array := { s.array with moduleRec := .valid c }, writer := none, degraded := true }
        ⟨false, false, false, false, !s.degraded⟩))) ∧
    (∀ n c, j = .sect n c →
      exec (.recordWriteCompletion .verified) s = .next (takeItem
        { s with array := { s.array with sections := upd s.array.sections n (.valid c) }, writer := none }) ∧
      exec (.recordWriteCompletion (.failed .torn)) s = .next (takeItem (State.raise
        { s with array := { s.array with sections := upd s.array.sections n .failed }, writer := none,
                 degraded := true } ⟨false, false, false, false, !s.degraded⟩)) ∧
      exec (.recordWriteCompletion (.failed .old)) s = .next (takeItem (State.raise
        { s with writer := none, degraded := true } ⟨false, false, false, false, !s.degraded⟩)) ∧
      exec (.recordWriteCompletion (.failed .new)) s = .next (takeItem (State.raise
        { s with array := { s.array with sections := upd s.array.sections n (.valid c) }, writer := none,
                 degraded := true } ⟨false, false, false, false, !s.degraded⟩))) ∧
    (∀ n c, j = .station n c →
      exec (.recordWriteCompletion .verified) s = .next (takeItem
        { s with array := { s.array with stations := upd s.array.stations n (.valid c) }, writer := none }) ∧
      exec (.recordWriteCompletion (.failed .torn)) s = .next (takeItem (State.raise
        { s with array := { s.array with stations := upd s.array.stations n .failed }, writer := none,
                 degraded := true } ⟨false, false, false, false, !s.degraded⟩)) ∧
      exec (.recordWriteCompletion (.failed .old)) s = .next (takeItem (State.raise
        { s with writer := none, degraded := true } ⟨false, false, false, false, !s.degraded⟩)) ∧
      exec (.recordWriteCompletion (.failed .new)) s = .next (takeItem (State.raise
        { s with array := { s.array with stations := upd s.array.stations n (.valid c) }, writer := none,
                 degraded := true } ⟨false, false, false, false, !s.degraded⟩)))) ∧
  (∀ (s : State) (ch : ChannelNo) (number : Nat) (p q : SlotPlan),
    s.writer = some (.proposal ch number [p, q] []) →
    (p.kind = .set → exec (.slotWriteCompletion .verified) s = .next
      { s with
        array := s.array.writeSlot p.slot ⟨(s.array.slot p.slot).header, p.body⟩
        writer := some (.proposal ch number [p, q]
          [decide ((s.array.slot p.slot).header = .entry p.key p.cls p.partner)]) }) ∧
    (p.kind = .create → exec (.slotWriteCompletion .verified) s = .next
      { s with
        array := s.array.writeSlot p.slot ⟨.entry p.key p.cls p.partner, p.body⟩
        writer := some (.proposal ch number [p, q] [true]) }) ∧
    (p.kind = .retire → exec (.slotWriteCompletion .verified) s = .next
      { s with
        array := s.array.writeSlot p.slot ⟨.free, (s.array.slot p.slot).body⟩
        writer := some (.proposal ch number [p, q] [true]) }) ∧
    (∀ h b, ∃ arr, exec (.slotWriteCompletion (.failed h b)) s = .next
      { s with array := arr, writer := some (.proposal ch number [p, q] [false]) } ∧
      (∀ n, n ≠ p.slot → arr.slot n = s.array.slot n) ∧ arr.stations = s.array.stations ∧
      arr.sections = s.array.sections ∧ arr.moduleRec = s.array.moduleRec) ∧
    (∀ h b, exec (.slotWriteCompletion (.failed h b)) s = .next
      { s with
        writer := some (.proposal ch number [p, q] [false])
        array := s.array.writeSlot p.slot
          ⟨match p.kind with
            | .set => (s.array.slot p.slot).header
            | .create => (match h with
              | .old => (s.array.slot p.slot).header | .new => .entry p.key p.cls p.partner | .torn => .failed)
            | .retire => (match h with
              | .old => (s.array.slot p.slot).header | .new => .free | .torn => .failed),
           match p.kind with
            | .set => (match b with | .old => (s.array.slot p.slot).body | .new => p.body | .torn => none)
            | .create => (match b with | .old => (s.array.slot p.slot).body | .new => p.body | .torn => none)
            | .retire => (s.array.slot p.slot).body⟩ }))

/-- PROPOSAL_ITEM_COMPLETION (R82, R70), the state it leaves given whole: the last slot is written; the results are
applied to the table, a slot whose RETIRE verified and that the table still holds is a freed one (R10), a failure makes
the store DEGRADED, and the digests are corrected; each enrolled station that is
not held is re-judged for each parameter of which some change hands its active format, by how it resolved before and
resolves after (R110, R83, with the rows of R111); the proposal is removed; the event ends (R183), with STORE set at
the first fault and PROPOSALS at the removal; the approving channel is handed DONE or WRITE_FAULT; and the writer takes
its next item. A channel that still wants its answer becomes ANSWERED with it; one that does not becomes IDLE, its
answer discarded (R175, R177). -/
def Obligations.ItemCompletion : Prop :=
  (∀ (s u : State) (o : SlotOutcome) (ch : ChannelNo) (number : Nat) (plans : List SlotPlan) (results : List Bool)
      (p : SlotPlan) (arr : NvArray) (all : List SlotResult) (m : SlotMap Entry) (judged : Bank 32 StationRec)
      (code : AnswerCode) (result : List Byte),
    s.writer = some (.proposal ch number plans results) → results.length + 1 = plans.length →
    plans[results.length]? = some p →
    arr = (writeSlotPlan p o s.array).1 → all = plans.zip (results ++ [(writeSlotPlan p o s.array).2]) →
    m = applyResults (tableResults s.freed all) s.slots →
    (∀ (st : StationNo) (f : FormatNo), f = (sel s.stations st).persist.format → sel judged st =
      if (sel s.stations st).persist.enrolled = true ∧ (sel s.stations st).holder = none then
        (((all.map fun d => (d.1.key.station, d.1.key.param)).dedup).filter fun x =>
          decide (x.1 = st) && all.any fun d => decide (d.1.key.station = st ∧ d.1.key.param = x.2 ∧
            (d.1.key.format = f ∨ (d.1.key.format = 0 ∧ entryAt s.slots ⟨st, f, x.2⟩ = none)))).foldl
          (fun r x => rejudgeRec x.2 (resolutionOf (resolve s.slots ⟨st, f, x.2⟩)) (resolve m ⟨st, f, x.2⟩) r)
          (sel s.stations st)
      else sel s.stations st) →
    (((∀ d ∈ all, d.2 = true) ∧ code = .done ∧
        result = [byteOf number] ++ halfBytes (newRevision all 0) ++ halfBytes (newRevision all 1)) ∨
      ((∃ d ∈ all, d.2 = false) ∧ code = .writeFault ∧
        result = [byteOf number, slotResultByte all 0, slotResultByte all 1] ++
          halfBytes (newRevision all 0) ++ halfBytes (newRevision all 1))) →
    u = { s with
      array := arr
      slots := m
      freed := (m.map Prod.fst).filter fun n =>
        s.freed.contains n || all.any fun d => d.1.slot == n && d.1.kind == .retire && d.2
      degraded := s.degraded || all.any fun d => !d.2
      digests := correctDigests s.slots m (all.map fun d => (d.1.key.station, d.1.key.param)).dedup s.digests
      stations := judged
      proposals := s.proposals.filter fun q => q.number != number
      writer := none } →
    exec (.proposalItemCompletion o) s = .next (takeItem (deliver ch code result (settle s u))) ∧
    (∀ c, (sel s.channels c).resetHeld = false →
      (sel (settle s u).channels c).flags.store =
        ((sel s.channels c).flags.store || (!s.degraded && all.any fun d => !d.2)) ∧
      ((∃ q ∈ s.proposals, q.number = number) → (sel (settle s u).channels c).flags.proposals = true))) ∧
  (∀ (s : State) (ch : ChannelNo) (code : AnswerCode) (result : List Byte) (req : Request),
    ((sel s.channels ch).handshake = .working true req → deliver ch code result s =
      s.onChannel ch fun c => { c with handshake := .answered, answer := .of code result }) ∧
    ((sel s.channels ch).handshake = .working false req → deliver ch code result s =
      s.onChannel ch fun c =>
        { c with handshake := .idle, armed := false, answer := ⟨0, Vector.replicate 10 0⟩ })) ∧
  (∀ (all : List SlotResult) (i : Nat),
    (all[i]? = none → slotResultByte all i = 0 ∧ newRevision all i = 0) ∧
    (∀ p, all[i]? = some (p, true) →
      slotResultByte all i = 1 ∧ newRevision all i = (p.body.map Body.revision).getD 0) ∧
    (∀ p, all[i]? = some (p, false) → slotResultByte all i = 2 ∧ newRevision all i = 0))

/-- R9 and R10: the slot a result leaves in the working form, for a single change, for a partner pair by the rows of
Table 8, and for two unrelated changes (R84). And the results as the table applies them: a slot that a verified RETIRE
freed, its pair staying in the table, is kept as freed; of a paired SET one of whose slots was freed both results count
as failed, which leaves the pair DAMAGED (R10, its last paragraph; that it goes before Table 8 is log entry 30); all
others are applied as they are. -/
def Obligations.SlotResultsApplied : Prop :=
  ∀ (m : SlotMap Entry) (p : SlotPlan), workingWf m = true → p.slot < 2048 →
    (p.kind ≠ .retire →
      slotGet (applyResults [(p, true)] m) p.slot = some ⟨p.key, p.cls, p.partner, p.body⟩ ∧
      slotGet (applyResults [(p, false)] m) p.slot = some ⟨p.key, p.cls, p.partner, none⟩) ∧
    (p.kind = .retire → p.partner = none →
      slotGet (applyResults [(p, true)] m) p.slot = none ∧
      slotGet (applyResults [(p, false)] m) p.slot = some ⟨p.key, p.cls, p.partner, none⟩) ∧
    (∀ (ok : Bool) (n : Nat), n ≠ p.slot → slotGet (applyResults [(p, ok)] m) n = slotGet m n) ∧
    (∀ q : SlotPlan, q.slot < 2048 → p.slot ≠ q.slot →
      (p.kind = .retire → q.kind = .retire → q.key = { p.key with param := q.key.param } →
        p.partner = some q.key.param → q.partner = some p.key.param →
        slotGet (applyResults [(p, true), (q, true)] m) p.slot = none ∧
        slotGet (applyResults [(p, true), (q, true)] m) q.slot = none ∧
        (∀ x y : Bool, (x && y) = false →
          slotGet (applyResults [(p, x), (q, y)] m) p.slot = some ⟨p.key, p.cls, p.partner, none⟩ ∧
          slotGet (applyResults [(p, x), (q, y)] m) q.slot = some ⟨q.key, q.cls, q.partner, none⟩) ∧
        (∀ freed : List Nat, p.slot ∈ freedAfter freed [(p, true), (q, false)] (applyResults [(p, true), (q, false)] m) ∧
          q.slot ∈ freedAfter freed [(p, false), (q, true)] (applyResults [(p, false), (q, true)] m) ∧
          p.slot ∉ freedAfter freed [(p, true), (q, true)] (applyResults [(p, true), (q, true)] m))) ∧
      (p.kind ≠ .retire → q.kind ≠ .retire → ∀ x y : Bool,
        slotGet (applyResults [(p, x), (q, y)] m) p.slot =
          some ⟨p.key, p.cls, p.partner, if x then p.body else none⟩ ∧
        slotGet (applyResults [(p, x), (q, y)] m) q.slot =
          some ⟨q.key, q.cls, q.partner, if y then q.body else none⟩) ∧
      (¬ (q.key = { p.key with param := q.key.param } ∧ p.partner = some q.key.param ∧
          q.partner = some p.key.param) → ∀ x y : Bool,
        slotGet (applyResults [(p, x), (q, y)] m) p.slot = slotGet (applyResults [(p, x)] m) p.slot ∧
        slotGet (applyResults [(p, x), (q, y)] m) q.slot = slotGet (applyResults [(q, y)] m) q.slot) ∧
      (∀ (x y : Bool) (n : Nat), n ≠ p.slot → n ≠ q.slot →
        slotGet (applyResults [(p, x), (q, y)] m) n = slotGet m n)) ∧
    (∀ (freed : List Nat) (q : SlotPlan) (x y : Bool),
      (p.kind ≠ .set ∨ p.slot ∉ freed → p.partner ≠ some p.key.param → tableResults freed [(p, x)] = [(p, x)]) ∧
      (p.kind ≠ .set → q.kind ≠ .set → tableResults freed [(p, x), (q, y)] = [(p, x), (q, y)]) ∧
      (p.slot ∉ freed → q.slot ∉ freed → tableResults freed [(p, x), (q, y)] = [(p, x), (q, y)]) ∧
      (p.kind = .set → q.kind = .set → q.key = { p.key with param := q.key.param } →
        p.partner = some q.key.param → q.partner = some p.key.param → p.slot ∈ freed ∨ q.slot ∈ freed →
        tableResults freed [(p, x), (q, y)] = [(p, false), (q, false)]))

/-- R6 and R79: the body a single SET writes, its revision among them; the one revision of a paired SET and the two
bodies it writes; the slot, header and body of a CREATE, and of a second CREATE of the proposal, which takes the lowest
FREE slot but the one the first has; and the slot of a RETIRE, which writes no body. -/
def Obligations.PlannedBodies : Prop :=
  (∀ (m : SlotMap Entry) (k : Key) (x : Half) (v : Word) (low high : BoundField) (t : Option Half) (n : Nat)
      (e : Entry) (b : Body),
    findEntry m k = some (n, e) → e.partner = none → e.body = some b →
    ∃ r : Half, planSlots m [Change.set k x v low high t] (m.map Prod.fst) [Change.set k x v low high t] =
      some [⟨.set, n, k, e.cls, none,
        some ⟨v, low.after b.low, high.after b.high, t.getD b.tolerance, r⟩⟩] ∧
      (b.revision.toNat < 65535 → r.toNat = b.revision.toNat + 1) ∧ (b.revision.toNat = 65535 → r = 1)) ∧
  (∀ (m : SlotMap Entry) (k : Key) (x : Half) (v : Word) (low high : BoundField) (t : Option Half) (n : Nat)
      (e : Entry),
    findEntry m k = some (n, e) → e.partner = none → e.body = none →
    planSlots m [Change.set k x v low high t] (m.map Prod.fst) [Change.set k x v low high t] =
      some [⟨.set, n, k, e.cls, none, some ⟨v, low.after none, high.after none, t.getD 0, 1⟩⟩]) ∧
  (∀ (m : SlotMap Entry) (c d : Change) (q : ParamNo) (r r' : Half),
    c.kind = .set → d.kind = .set → d.key = { c.key with param := q } → c.key ≠ d.key →
    (entryAt m c.key).bind Entry.partner = some q →
    (entryAt m d.key).bind Entry.partner = some c.key.param →
    r = revisionAt m c.key → r' = revisionAt m d.key →
    setRevision m [c, d] c = setRevision m [c, d] d ∧
    ((max r.toNat r'.toNat) < 65535 → (setRevision m [c, d] c).toNat = max r.toNat r'.toNat + 1) ∧
    (max r.toNat r'.toNat = 65535 → setRevision m [c, d] c = 1)) ∧
  (∀ (m : SlotMap Entry) (k : Key) (v : Word) (low high : BoundField) (t : Option Half) (cls : EntryClass)
      (q : Option ParamNo) (n : Nat),
    n < 2048 → n ∉ m.map Prod.fst → (∀ j < n, j ∈ m.map Prod.fst) →
    planSlots m [Change.create k v low high t cls q] (m.map Prod.fst) [Change.create k v low high t cls q] =
      some [⟨.create, n, k, cls, q, some ⟨v, low.after none, high.after none, t.getD 0, 1⟩⟩]) ∧
  (∀ (m : SlotMap Entry) (k k' : Key) (v v' : Word) (low high low' high' : BoundField) (t t' : Option Half)
      (cls cls' : EntryClass) (q q' : Option ParamNo) (n n' : Nat) (l : List Change),
    l = [Change.create k v low high t cls q, Change.create k' v' low' high' t' cls' q'] →
    n < n' → n' < 2048 → n ∉ m.map Prod.fst → n' ∉ m.map Prod.fst →
    (∀ j < n', j ≠ n → j ∈ m.map Prod.fst) →
    planSlots m l (m.map Prod.fst) l =
      some [⟨.create, n, k, cls, q, some ⟨v, low.after none, high.after none, t.getD 0, 1⟩⟩,
        ⟨.create, n', k', cls', q', some ⟨v', low'.after none, high'.after none, t'.getD 0, 1⟩⟩]) ∧
  (∀ (m : SlotMap Entry) (k : Key) (x : Half) (n : Nat) (e : Entry), findEntry m k = some (n, e) →
    planSlots m [Change.retire k x] (m.map Prod.fst) [Change.retire k x] =
      some [⟨.retire, n, k, e.cls, e.partner, none⟩]) ∧
  (∀ (m : SlotMap Entry) (k k' : Key) (x x' : Half) (v v' : Word) (low high low' high' : BoundField)
      (t t' : Option Half) (n n' : Nat) (e e' : Entry) (before : Nat) (l : List Change),
    l = [Change.set k x v low high t, Change.set k' x' v' low' high' t'] →
    findEntry m k = some (n, e) → findEntry m k' = some (n', e') → k ≠ k' →
    k' = { k with param := k'.param } → e.partner = some k'.param → e'.partner = some k.param →
    before = max ((e.body.map Body.revision).getD 0).toNat ((e'.body.map Body.revision).getD 0).toNat →
    ∃ r : Half, planSlots m l (m.map Prod.fst) l =
      some [⟨.set, n, k, e.cls, e.partner,
          some ⟨v, low.after (e.body.bind Body.low), high.after (e.body.bind Body.high),
            t.getD ((e.body.map Body.tolerance).getD 0), r⟩⟩,
        ⟨.set, n', k', e'.cls, e'.partner,
          some ⟨v', low'.after (e'.body.bind Body.low), high'.after (e'.body.bind Body.high),
            t'.getD ((e'.body.map Body.tolerance).getD 0), r⟩⟩] ∧
      (before < 65535 → r.toNat = before + 1) ∧ (before = 65535 → r = 1))

/-! ### Stations -/

/-- R115: the first condition that applies gives the derived state. -/
def Obligations.DerivedStateOrder : Prop :=
  ∀ r : StationRec,
    (r.persist.enrolled = false → derivedState r = .unenrolled) ∧
    (r.persist.enrolled = true →
      (∀ ch, r.holder = some ch → derivedState r = .held) ∧
      (r.holder = none →
        (r.stale = true → derivedState r = .stale) ∧
        (r.stale = false →
          (r.list ≠ [] ∨ r.overflow = true → derivedState r = .divergent) ∧
          (r.list = [] → r.overflow = false →
            (r.digestSeen = false → derivedState r = .awaiting) ∧
            (r.digestSeen = true → derivedState r = .conforming)))))

/-- ENROLL (R95, with the rebuild of R100) and UNENROLL (R96). -/
def Obligations.Enrolment : Prop :=
  ∀ (ch : ChannelNo) (a : Args) (s : State) (st : StationNo),
    stationOf (argByte a 0).toNat = some st →
    (∀ sec : SectionNo, Passes 3 [.engineer] ch a s → sectionOf (argByte a 1).toNat = some sec →
      1 ≤ (argByte a 2).toNat → (argByte a 2).toNat ≤ 250 →
      ((s.changing sec = true ∨ ((sel s.stations st).persist.enrolled = true ∧
          s.changing (sel s.stations st).persist.sect = true)) →
        exec (.enroll ch a) s = .next (answered ch .sectionBusy [] s)) ∧
      (s.changing sec = false → ((sel s.stations st).persist.enrolled = true →
          s.changing (sel s.stations st).persist.sect = false) →
        ∃ s1 s2, s1 = enqueue (.station st) (s.setStation st
            { persist := ⟨true, sec, (argByte a 2).toNat, (sel s.sections sec).persist.format⟩
              holder := (sel s.stations st).holder
              timer := if (sel s.stations st).holder = none then some ((argByte a 2).toNat * 1000)
                else (sel s.stations st).timer
              stale := false
              digestSeen := false
              pending := (sel s.stations st).pending
              list := ((damagedParams s.slots st (sel s.sections sec).persist.format).take 8).map fun p =>
                .param p .damaged none
              overflow := decide
                (8 < (damagedParams s.slots st (sel s.sections sec).persist.format).length) }) ∧
          s2 = recompute sec s1 ∧
          exec (.enroll ch a) s = .next (answered ch .done [byteOf (sel s.sections sec).persist.format.val]
            (settle s (if (sel s.stations st).persist.enrolled = true ∧ (sel s.stations st).persist.sect ≠ sec
              then recompute (sel s.stations st).persist.sect s2 else s2))))) ∧
    (Passes 1 [.engineer] ch a s →
      ((sel s.stations st).persist.enrolled = false →
        exec (.unenroll ch a) s = .next (answered ch .notEnrolled [] s)) ∧
      ((sel s.stations st).persist.enrolled = true → s.changing (sel s.stations st).persist.sect = true →
        exec (.unenroll ch a) s = .next (answered ch .sectionBusy [] s)) ∧
      ((sel s.stations st).persist.enrolled = true → s.changing (sel s.stations st).persist.sect = false →
        exec (.unenroll ch a) s = .next (answered ch .done [] (settle s
          (recompute (sel s.stations st).persist.sect (enqueue (.station st) (s.setStation st
            { persist := { (sel s.stations st).persist with enrolled := false }, holder := none, timer := none,
              stale := false, digestSeen := false, pending := false, list := [], overflow := false })))))))

/-- REPORT_VALUE (R101, R102): the first step that applies gives the verdict, which is recorded by R98. -/
def Obligations.ReportValueJudged : Prop :=
  ∀ (ch : ChannelNo) (a : Args) (s : State) (st : StationNo) (p : ParamNo),
    Passes 7 everyRole ch a s → stationOf (argByte a 0).toNat = some st → paramOf (argHalf a 1).toNat = some p →
    ((sel s.stations st).persist.enrolled = false →
      exec (.reportValue ch a) s = .next (answered ch .notEnrolled [] s)) ∧
    ((sel s.stations st).persist.enrolled = true → (sel s.stations st).holder ≠ none →
      exec (.reportValue ch a) s = .next (answered ch .done
        [0x0A, 1, byteOf (sel s.stations st).list.length] s)) ∧
    ((sel s.stations st).persist.enrolled = true → (sel s.stations st).holder = none →
      ∀ (e : Option Entry), e = resolve s.slots ⟨st, (sel s.stations st).persist.format, p⟩ →
      (∀ (kind : ParamKind) (r' : StationRec),
        ((e = none ∧ kind = .unknownParameter) ∨
          (∃ x, e = some x ∧ x.body = none ∧ kind = .damaged) ∨
          (∃ x b, e = some x ∧ x.body = some b ∧ kind = .outOfBounds ∧
            ((∃ l, b.low = some l ∧ (argWord a 3).toInt < l.toInt) ∨
              (∃ h, b.high = some h ∧ h.toInt < (argWord a 3).toInt))) ∨
          (∃ x b, e = some x ∧ x.body = some b ∧ kind = .deviates ∧
            (∀ l, b.low = some l → l.toInt ≤ (argWord a 3).toInt) ∧
            (∀ h, b.high = some h → (argWord a 3).toInt ≤ h.toInt) ∧
            b.tolerance.toNat < ((argWord a 3).toInt - b.value.toInt).natAbs)) →
        r' = (sel s.stations st).find p kind (some (argWord a 3)) →
        exec (.reportValue ch a) s = .next (answered ch .done
          ([kind.byte, (derivedState r').byte, byteOf r'.list.length] ++
            halfBytes ((e.map Entry.statedRevision).getD 0))
          (settle s (s.setStation st r')))) ∧
      (∀ (x : Entry) (b : Body) (r' : StationRec), e = some x → x.body = some b →
        (∀ l, b.low = some l → l.toInt ≤ (argWord a 3).toInt) →
        (∀ h, b.high = some h → (argWord a 3).toInt ≤ h.toInt) →
        ((argWord a 3).toInt - b.value.toInt).natAbs ≤ b.tolerance.toNat →
        r' = { sel s.stations st with list := (sel s.stations st).list.filter fun d => !d.about p } →
        exec (.reportValue ch a) s = .next (answered ch .done
          ([0x07, (derivedState r').byte, byteOf r'.list.length] ++ halfBytes b.revision)
          (settle s (s.setStation st r')))))

/-- R98: how a finding joins, updates or overflows a divergence list. R111: the re-judgement of one parameter,
row by row of Table 32. R100: the parameters of a rebuilt list are those that resolve to a DAMAGED entry, ascending. R105:
what a MATCH keeps the overflow for is such a parameter of the station's active format without a record. -/
def Obligations.ListUpdates : Prop :=
  (∀ (r : StationRec) (p : ParamNo) (kind : ParamKind) (value : Option Word),
    (p ∉ paramsListed r.list → r.list.length < 8 →
      r.find p kind value = { r with list := r.list ++ [.param p kind value] }) ∧
    (p ∉ paramsListed r.list → 8 ≤ r.list.length → r.find p kind value = { r with overflow := true }) ∧
    (∀ l l' old v, r.list = l ++ .param p old v :: l' → p ∉ paramsListed l → p ∉ paramsListed l' →
      r.find p kind value = { r with list := l ++ .param p kind (value.or v) :: l' }) ∧
    (∀ (k : LevelKind) (f : FormatNo) (d : Word),
      (r.list.any DivRecord.isLevel = false → r.list.length < 8 →
        r.findLevel k f d = { r with list := r.list ++ [.level k f d] }) ∧
      (r.list.any DivRecord.isLevel = false → 8 ≤ r.list.length →
        r.findLevel k f d = { r with overflow := true }) ∧
      (∀ l l' k' f' d', r.list = l ++ .level k' f' d' :: l' → l.any DivRecord.isLevel = false →
        l'.any DivRecord.isLevel = false →
        r.findLevel k f d = { r with list := l ++ .level k f d :: l' }))) ∧
  (∀ (r : StationRec) (p : ParamNo) (before : Resolution) (now : Option Entry),
    (∀ l l' old v, r.list = l ++ .param p old (some v) :: l' → p ∉ paramsListed l → p ∉ paramsListed l' →
      (∀ e b, now = some e → e.body = some b →
        (judgeBody b v = none → rejudgeRec p before now r = { r with list := l ++ l' }) ∧
        (∀ k, judgeBody b v = some k →
          rejudgeRec p before now r = { r with list := l ++ .param p k (some v) :: l' })) ∧
      (∀ e, now = some e → e.body = none →
        rejudgeRec p before now r = { r with list := l ++ .param p .damaged (some v) :: l' }) ∧
      (now = none →
        rejudgeRec p before now r = { r with list := l ++ .param p .unknownParameter (some v) :: l' })) ∧
    (∀ l l', r.list = l ++ .param p .damaged none :: l' → p ∉ paramsListed l → p ∉ paramsListed l' →
      (resolutionOf now = .damaged → rejudgeRec p before now r = r) ∧
      (resolutionOf now ≠ .damaged → rejudgeRec p before now r = { r with list := l ++ l' })) ∧
    (p ∉ paramsListed r.list →
      (resolutionOf now = .damaged → before ≠ .damaged →
        rejudgeRec p before now r = r.find p .damaged none) ∧
      (resolutionOf now ≠ .damaged ∨ before = .damaged → rejudgeRec p before now r = r))) ∧
  (∀ (m : SlotMap Entry) (st : StationNo) (f : FormatNo),
    (∀ p, p ∈ damagedParams m st f ↔ ∃ e, resolve m ⟨st, f, p⟩ = some e ∧ e.body = none) ∧
    (damagedParams m st f).Pairwise (· < ·)) ∧
  (∀ (m : SlotMap Entry) (st : StationNo) (r : StationRec), unlistedDamage m st r = true ↔
    ∃ p e, resolve m ⟨st, r.persist.format, p⟩ = some e ∧ e.body = none ∧ p ∉ paramsListed r.list)

/-- REPORT_DIGEST in the active format (R103, R105): MATCH or MISMATCH, after stale is cleared and the window
timer started again. -/
def Obligations.DigestReportActive : Prop :=
  ∀ (ch : ChannelNo) (a : Args) (s : State) (st : StationNo) (f : FormatNo) (r : StationRec) (d : DigestPair),
    Passes 8 everyRole ch a s → stationOf (argByte a 0).toNat = some st →
    productFormatOf (argByte a 1).toNat = some f → (argHalf a 2).toNat ≤ 1024 →
    (sel s.stations st).persist.enrolled = true → (sel s.stations st).holder = none →
    f = (sel s.stations st).persist.format → d = s.pairOf st f →
    r = { sel s.stations st with
      timer := some ((sel s.stations st).persist.window * 1000), stale := false } →
    (d = ⟨argWord a 4, (argHalf a 2).toNat⟩ → ∀ r' : StationRec,
      r' = { r with
        list := r.list.filter fun x => !x.isLevel
        digestSeen := true
        overflow := r.overflow && unlistedDamage s.slots st r } →
      exec (.reportDigest ch a) s = .next (answered ch .done
        ([0x0B, (derivedState r').byte, byteOf r'.list.length] ++ wordBytes d.digest ++ numBytes d.count)
        (settle s (s.setStation st r')))) ∧
    (d ≠ ⟨argWord a 4, (argHalf a 2).toNat⟩ → ∀ r' : StationRec,
      r' = r.findLevel .digestMismatch f (argWord a 4) →
      exec (.reportDigest ch a) s = .next (answered ch .done
        ([0x0C, (derivedState r').byte, byteOf r'.list.length] ++ wordBytes d.digest ++ numBytes d.count)
        (settle s (s.setStation st r'))))

/-- REPORT_DIGEST otherwise: held (R103), the adoption report (R106), and the wrong format (R107). -/
def Obligations.DigestReportOther : Prop :=
  ∀ (ch : ChannelNo) (a : Args) (s : State) (st : StationNo) (f : FormatNo) (r : StationRec) (d : DigestPair),
    Passes 8 everyRole ch a s → stationOf (argByte a 0).toNat = some st →
    productFormatOf (argByte a 1).toNat = some f → (argHalf a 2).toNat ≤ 1024 →
    d = s.pairOf st f →
    r = { sel s.stations st with
      timer := some ((sel s.stations st).persist.window * 1000), stale := false } →
    ((sel s.stations st).persist.enrolled = false →
      exec (.reportDigest ch a) s = .next (answered ch .notEnrolled [] s)) ∧
    ((sel s.stations st).persist.enrolled = true → (sel s.stations st).holder ≠ none →
      exec (.reportDigest ch a) s = .next (answered ch .done
        [0x0A, 1, byteOf (sel s.stations st).list.length] s)) ∧
    ((sel s.stations st).persist.enrolled = true → (sel s.stations st).holder = none →
      f ≠ (sel s.stations st).persist.format →
      ((sel s.stations st).pending = true → s.changingTo (sel s.stations st).persist.sect f = true →
        (d = ⟨argWord a 4, (argHalf a 2).toNat⟩ → ∀ r' : StationRec,
          r' = { r with
            persist := { r.persist with format := f }
            pending := false
            digestSeen := true
            list := ((damagedParams s.slots st f).take 8).map fun p => .param p .damaged none
            overflow := decide (8 < (damagedParams s.slots st f).length) } →
          exec (.reportDigest ch a) s = .next (answered ch .done
            ([0x0D, (derivedState r').byte, byteOf r'.list.length] ++ wordBytes d.digest ++ numBytes d.count)
            (settle s (adoptionNotice r.persist.sect (enqueue (.station st) (s.setStation st r')))))) ∧
        (d ≠ ⟨argWord a 4, (argHalf a 2).toNat⟩ → ∀ r' : StationRec,
          r' = r.findLevel .digestMismatch f (argWord a 4) →
          exec (.reportDigest ch a) s = .next (answered ch .done
            ([0x0C, (derivedState r').byte, byteOf r'.list.length] ++ wordBytes d.digest ++ numBytes d.count)
            (settle s (s.setStation st r'))))) ∧
      ((sel s.stations st).pending = false ∨ s.changingTo (sel s.stations st).persist.sect f = false →
        ∀ r' : StationRec, r' = r.findLevel .wrongFormat f (argWord a 4) →
        exec (.reportDigest ch a) s = .next (answered ch .done
          [0x0E, (derivedState r').byte, byteOf r'.list.length] (settle s (s.setStation st r')))))

/-- HOLD (R112), RELEASE_HOLD (R114, with the rebuild of R100) and WINDOW_EXPIRY (R104): an expiry that is due sets
stale; after a report or a rebuild that started the timer again, or a hold that stopped it, none occurs. That an expiry
is due within the 10 ms of R104 before its time is read from that accuracy (log entry 5). -/
def Obligations.HoldsAndWindow : Prop :=
  (∀ (ch : ChannelNo) (a : Args) (s : State) (st : StationNo), Passes 1 [.operator, .engineer, .quality] ch a s →
    stationOf (argByte a 0).toNat = some st → (sel s.stations st).persist.enrolled = false →
    exec (.hold ch a) s = .next (answered ch .notEnrolled [] s) ∧
    exec (.releaseHold ch a) s = .next (answered ch .notEnrolled [] s)) ∧
  (∀ (s : State) (st : StationNo), (sel s.stations st).persist.enrolled = true →
    (∀ (ch : ChannelNo) (a : Args), Passes 1 [.operator, .engineer, .quality] ch a s →
      stationOf (argByte a 0).toNat = some st →
      ((sel s.stations st).holder = none →
        exec (.hold ch a) s = .next (answered ch .done [0] (settle s
          (s.setStation st { sel s.stations st with holder := some ch, timer := none }))) ∧
        exec (.releaseHold ch a) s = .next (answered ch .done [0] s)) ∧
      ((sel s.stations st).holder = some ch →
        exec (.hold ch a) s = .next (answered ch .done [byteOf (ch.val + 1)] s)) ∧
      (∀ c, (sel s.stations st).holder = some c → c ≠ ch →
        exec (.hold ch a) s = .next (answered ch .heldByOther [byteOf (c.val + 1)] s) ∧
        (s.role ch = .operator →
          exec (.releaseHold ch a) s = .next (answered ch .denied [1] s))) ∧
      (∀ c, (sel s.stations st).holder = some c → (c = ch ∨ s.role ch ≠ .operator) →
        exec (.releaseHold ch a) s = .next (answered ch .done [byteOf (c.val + 1)] (settle s
          (s.setStation st
            { sel s.stations st with
              holder := none
              timer := some ((sel s.stations st).persist.window * 1000)
              stale := false
              digestSeen := false
              list := ((damagedParams s.slots st (sel s.stations st).persist.format).take 8).map fun p =>
                .param p .damaged none
              overflow := decide
                (8 < (damagedParams s.slots st (sel s.stations st).persist.format).length) }))))) ∧
    (∀ ms, (sel s.stations st).timer = some ms →
      (ms ≤ 10 → exec (.windowExpiry st) s = .next (settle s
        (s.setStation st { sel s.stations st with timer := none, stale := true }))) ∧
      (10 < ms → exec (.windowExpiry st) s = .next s))) ∧
  (∀ (s : State) (st : StationNo), (sel s.stations st).timer = none → exec (.windowExpiry st) s = .next s)

/-- READ_STATION (R117) and READ_DIVERGENCE (R99). -/
def Obligations.StationReadings : Prop :=
  ∀ (ch : ChannelNo) (a : Args) (s : State) (st : StationNo), stationOf (argByte a 0).toNat = some st →
    (Passes 1 everyRole ch a s →
      exec (.readStation ch a) s = .next (answered ch .done
        [(derivedState (sel s.stations st)).byte,
          bitsByte [(sel s.stations st).stale, (sel s.stations st).digestSeen, (sel s.stations st).pending,
            (sel s.stations st).overflow],
          byteOf (sel s.stations st).persist.format.val, byteOf ((sel s.stations st).persist.sect.val + 1),
          byteOf (sel s.stations st).persist.window, byteOf (sel s.stations st).list.length,
          byteOf ((sel s.stations st).holder.elim 0 fun c => c.val + 1),
          byteOf ((sel s.stations st).timer.elim 0 fun ms => max 1 ((ms + 999) / 1000))] s)) ∧
    (Passes 2 everyRole ch a s →
      (7 < (argByte a 1).toNat → exec (.readDivergence ch a) s = .next (answered ch .badArgument [] s)) ∧
      ((argByte a 1).toNat ≤ 7 → (sel s.stations st).list.length ≤ (argByte a 1).toNat →
        exec (.readDivergence ch a) s = .next (answered ch .listEnd [] s)) ∧
      (∀ p kind v, (argByte a 1).toNat ≤ 7 →
        (sel s.stations st).list[(argByte a 1).toNat]? = some (.param p kind v) →
        exec (.readDivergence ch a) s = .next (answered ch .done
          ([kind.byte, bitsByte [v.isSome, (sel s.stations st).overflow]] ++ numBytes p.val ++
            wordBytes (v.getD 0)) s)) ∧
      (∀ kind f d, (argByte a 1).toNat ≤ 7 →
        (sel s.stations st).list[(argByte a 1).toNat]? = some (.level kind f d) →
        exec (.readDivergence ch a) s = .next (answered ch .done
          ([kind.byte, bitsByte [false, (sel s.stations st).overflow], byteOf f.val, 0] ++ wordBytes d) s)))

/-! ### Sections -/

/-- R125: the recompute of a section that is not CHANGING. A change of the format asks for a write of the
section record; nothing else changes. -/
def Obligations.RecomputeRule : Prop :=
  ∀ (s : State) (sec : SectionNo), s.changing sec = false →
    (s.enrolledIn sec = [] →
      recompute sec s = s.setSectionRec sec ⟨(sel s.sections sec).persist, .steady⟩) ∧
    (∀ f : FormatNo, s.enrolledIn sec ≠ [] →
      (∀ st ∈ s.enrolledIn sec, (sel s.stations st).persist.format = f) →
      (f = (sel s.sections sec).persist.format →
        recompute sec s = s.setSectionRec sec ⟨(sel s.sections sec).persist, .steady⟩) ∧
      (f ≠ (sel s.sections sec).persist.format →
        recompute sec s = enqueue (.sect sec) (s.setSectionRec sec
          ⟨{ (sel s.sections sec).persist with format := f }, .steady⟩))) ∧
    (∀ st st' : StationNo, st ∈ s.enrolledIn sec → st' ∈ s.enrolledIn sec →
      (sel s.stations st).persist.format ≠ (sel s.stations st').persist.format →
      recompute sec s = s.setSectionRec sec ⟨(sel s.sections sec).persist, .split⟩)

/-- CHANGEOVER (R128, R130): the checks in their order, the beginning with its pending flags and timer, and
the immediate end where no station is off the target. -/
def Obligations.ChangeoverBegins : Prop :=
  ∀ (ch : ChannelNo) (a : Args) (s : State) (sec : SectionNo) (target : FormatNo),
    Passes 2 [.operator, .engineer] ch a s → sectionOf (argByte a 0).toNat = some sec →
    productFormatOf (argByte a 1).toNat = some target →
    (s.changing sec = true → exec (.changeover ch a) s = .next (answered ch .sectionBusy [] s)) ∧
    ((sel s.sections sec).state = .steady → target = (sel s.sections sec).persist.format →
      exec (.changeover ch a) s = .next (answered ch .sameFormat [] s)) ∧
    (s.changing sec = false → ¬ ((sel s.sections sec).state = .steady ∧
        target = (sel s.sections sec).persist.format) →
      ∀ (off : List StationNo),
        off = (s.enrolledIn sec).filter (fun st =>
          (sel s.stations st).pending || (sel s.stations st).persist.format != target) →
        (∀ t : State, off ≠ [] →
          t = { s with
            sections := upd s.sections sec ⟨(sel s.sections sec).persist,
              .changing target ((sel s.sections sec).persist.deadline * 1000)⟩
            stations := each s.stations fun st r =>
              if st ∈ s.enrolledIn sec ∧ r.persist.format ≠ target then { r with pending := true } else r } →
          exec (.changeover ch a) s = .next (answered ch .done
            ([1, byteOf off.length] ++ numBytes (sel s.sections sec).persist.deadline) (settle s t))) ∧
        (off = [] →
          exec (.changeover ch a) s = .next (answered ch .done
            ([0, 0] ++ numBytes (sel s.sections sec).persist.deadline)
            (settle s (enqueue (.sect sec) (s.setSectionRec sec
              ⟨{ (sel s.sections sec).persist with format := target }, .steady⟩))))))

/-- The ends of a changeover (R134): ABORT_CHANGEOVER (R137), DEADLINE_EXPIRY (R133), and the adoption notice that
leaves no station pending (R131, COMPLETED): pending flags cleared, target and timer dropped, and the section
recomputed. Outside CHANGING an abort changes nothing, an expiry that is not due does not occur (R138), and a notice
that leaves a station pending changes nothing. That an expiry is due within the 10 ms of R133 before its time is read
from that accuracy (log entry 5). -/
def Obligations.ChangeoverEnds : Prop :=
  ∀ (s : State) (sec : SectionNo) (t : State),
    t = recompute sec
      { s with
        sections := upd s.sections sec ⟨(sel s.sections sec).persist, .steady⟩
        stations := each s.stations fun st r =>
          if st ∈ s.enrolledIn sec then { r with pending := false } else r } →
    (∀ target ms, (sel s.sections sec).state = .changing target ms →
      (ms ≤ 10 → exec (.deadlineExpiry sec) s = .next (settle s t)) ∧
      (10 < ms → exec (.deadlineExpiry sec) s = .next s)) ∧
    (s.changing sec = false → exec (.deadlineExpiry sec) s = .next s ∧ adoptionNotice sec s = s) ∧
    (s.changing sec = true →
      ((∀ st ∈ s.enrolledIn sec, (sel s.stations st).pending = false) → adoptionNotice sec s = t) ∧
      ((∃ st ∈ s.enrolledIn sec, (sel s.stations st).pending = true) → adoptionNotice sec s = s)) ∧
    (∀ (ch : ChannelNo) (a : Args), Passes 1 [.operator, .engineer] ch a s →
      sectionOf (argByte a 0).toNat = some sec →
      (s.changing sec = true →
        exec (.abortChangeover ch a) s = .next (answered ch .done
          [1, byteOf (sel t.sections sec).state.code, byteOf (sel t.sections sec).persist.format.val,
            byteOf ((s.enrolledIn sec).filter fun st => (sel s.stations st).pending).length] (settle s t))) ∧
      (s.changing sec = false →
        exec (.abortChangeover ch a) s = .next (answered ch .done
          [0, byteOf (sel s.sections sec).state.code, byteOf (sel s.sections sec).persist.format.val, 0] s)))

/-- SET_SECTION (R139) and READ_SECTION (R140). -/
def Obligations.SectionRequests : Prop :=
  ∀ (ch : ChannelNo) (a : Args) (s : State) (sec : SectionNo), sectionOf (argByte a 0).toNat = some sec →
    (Passes 3 [.engineer] ch a s →
      ((argHalf a 1).toNat < 30 ∨ 3600 < (argHalf a 1).toNat →
        exec (.setSection ch a) s = .next (answered ch .badArgument [] s)) ∧
      (30 ≤ (argHalf a 1).toNat → (argHalf a 1).toNat ≤ 3600 →
        (s.changing sec = true → exec (.setSection ch a) s = .next (answered ch .sectionBusy [] s)) ∧
        (s.changing sec = false →
          exec (.setSection ch a) s = .next (answered ch .done (halfBytes (argHalf a 1))
            (enqueue (.sect sec) (s.setSectionRec sec
              ⟨{ (sel s.sections sec).persist with deadline := (argHalf a 1).toNat },
                (sel s.sections sec).state⟩)))))) ∧
    (Passes 1 everyRole ch a s →
      exec (.readSection ch a) s = .next (answered ch .done
        ([byteOf (sel s.sections sec).state.code, byteOf (sel s.sections sec).persist.format.val,
          byteOf (sel s.sections sec).state.target, byteOf (s.enrolledIn sec).length,
          byteOf (if s.changing sec then
            ((s.enrolledIn sec).filter fun st => (sel s.stations st).pending).length else 0)] ++
          numBytes ((sel s.sections sec).state.timer.elim 0 fun ms => max 1 ((ms + 999) / 1000)) ++
          numBytes (sel s.sections sec).persist.deadline ++
          [bitsByte [(sel s.outputs sec).mode.byte.getLsbD 0, (sel s.outputs sec).mode.byte.getLsbD 1,
            (sel s.outputs sec).commanded, (sel s.outputs sec).readback, (sel s.outputs sec).fault]]) s))

/-! ### Outputs -/

/-- R146: in AUTO mode the commanded state is ON exactly when READY is set, the section is STEADY, it has an
enrolled station, and every enrolled station is CONFORMING. -/
def Obligations.AutoConditionRule : Prop :=
  ∀ (s : State) (sec : SectionNo),
    ((sel s.outputs sec).mode = .auto →
      (s.commandFormed sec = true ↔
        s.phase = .running ∧ (sel s.sections sec).state = .steady ∧
        (∃ st : StationNo, (sel s.stations st).persist.enrolled = true ∧
          (sel s.stations st).persist.sect = sec) ∧
        (∀ st : StationNo, (sel s.stations st).persist.enrolled = true →
          (sel s.stations st).persist.sect = sec → derivedState (sel s.stations st) = .conforming))) ∧
    ((sel s.outputs sec).mode = .forcedOff → s.commandFormed sec = false) ∧
    (∀ n, (sel s.outputs sec).mode = .bypass n → s.commandFormed sec = s.ready)

/-- How an event ends (R145, R150, R183): each output whose formed command changed takes the new one, a change
to ON starting the 50 ms and a change to OFF clearing the fault at once; each flag is set by its causes on
every channel whose reset is not held; and nothing else changes. That the causes are found by comparing the states
before and after the whole command is the model's choice (log entry 22), that an output is formed again only where its
formed state changed is deduced (log entry 23), and a readback change during a scan sets SECTIONS too, though R184 says
that the events of the scan set no flag (log entry 12). -/
def Obligations.EventsSettle : Prop :=
  ∀ (s u : State),
    (∀ sec, (s.commandFormed sec = u.commandFormed sec → sel (settle s u).outputs sec = sel u.outputs sec) ∧
      (s.commandFormed sec ≠ u.commandFormed sec →
        (sel (settle s u).outputs sec).commanded = u.commandFormed sec ∧
        (sel (settle s u).outputs sec).mode = (sel u.outputs sec).mode ∧
        (sel (settle s u).outputs sec).readback = (sel u.outputs sec).readback) ∧
      (s.commandFormed sec = false → u.commandFormed sec = true → (sel u.outputs sec).commanded = false →
        (sel (settle s u).outputs sec).faultDelay = some 50 ∧ (sel (settle s u).outputs sec).fault = false) ∧
      (s.commandFormed sec = true → u.commandFormed sec = false → (sel u.outputs sec).commanded = true →
        (sel (settle s u).outputs sec).faultDelay = none ∧ (sel (settle s u).outputs sec).fault = false ∧
        (sel (settle s u).outputs sec).tripped = false)) ∧
    (∀ ch, (sel u.channels ch).resetHeld = true → sel (settle s u).channels ch = sel u.channels ch) ∧
    (∀ ch, (sel u.channels ch).resetHeld = false → ∃ e : EventSet,
      sel (settle s u).channels ch = { sel u.channels ch with flags := (sel u.channels ch).flags.join e } ∧
      (e.proposals = true ↔ s.proposals.map Proposal.stamp ≠ u.proposals.map Proposal.stamp) ∧
      (e.stations = true ↔ ∃ st, derivedState (sel s.stations st) ≠ derivedState (sel u.stations st)) ∧
      (e.sections = true ↔ ∃ sec, (sel s.sections sec).state.code ≠ (sel u.sections sec).state.code ∨
        (sel s.sections sec).persist.format ≠ (sel u.sections sec).persist.format ∨
        (sel s.outputs sec).commanded ≠ (sel (settle s u).outputs sec).commanded ∨
        (sel s.outputs sec).readback ≠ (sel (settle s u).outputs sec).readback ∨
        (sel s.outputs sec).fault ≠ (sel (settle s u).outputs sec).fault) ∧
      (e.release = true ↔ s.release.isSome ≠ u.release.isSome) ∧
      (e.store = true ↔ s.degraded = false ∧ u.degraded = true)) ∧
    settle s u = { u with channels := (settle s u).channels, outputs := (settle s u).outputs }

/-- SET_OUTPUT_MODE (R147): BYPASS for ENGINEER alone, its duration checked first; the answer carries the
previous and new mode, the commanded state formed for the new mode, and the duration applied. -/
def Obligations.SetOutputModeRule : Prop :=
  ∀ (ch : ChannelNo) (a : Args) (s : State) (sec : SectionNo),
    Passes 4 [.operator, .engineer, .quality] ch a s → sectionOf (argByte a 0).toNat = some sec →
    (2 < (argByte a 1).toNat ∨ (argByte a 1 = 2 ∧ ((argHalf a 2).toNat < 10 ∨ 1800 < (argHalf a 2).toNat)) →
      exec (.setOutputMode ch a) s = .next (answered ch .badArgument [] s)) ∧
    (argByte a 1 = 2 → 10 ≤ (argHalf a 2).toNat → (argHalf a 2).toNat ≤ 1800 → s.role ch ≠ .engineer →
      exec (.setOutputMode ch a) s = .next (answered ch .denied [(s.role ch).byte] s)) ∧
    (argByte a 1 = 2 → 10 ≤ (argHalf a 2).toNat → (argHalf a 2).toNat ≤ 1800 → s.role ch = .engineer →
      exec (.setOutputMode ch a) s = .next (answered ch .done
        ([(sel s.outputs sec).mode.byte, 2, 1] ++ halfBytes (argHalf a 2))
        (settle s (s.setOutput sec
          { sel s.outputs sec with mode := .bypass ((argHalf a 2).toNat * 1000) })))) ∧
    (argByte a 1 = 1 →
      exec (.setOutputMode ch a) s = .next (answered ch .done [(sel s.outputs sec).mode.byte, 1, 0, 0, 0]
        (settle s (s.setOutput sec { sel s.outputs sec with mode := .forcedOff })))) ∧
    (argByte a 1 = 0 →
      exec (.setOutputMode ch a) s = .next (answered ch .done
        [(sel s.outputs sec).mode.byte, 0, byteOf (s.autoCondition sec).toNat, 0, 0]
        (settle s (s.setOutput sec { sel s.outputs sec with mode := .auto }))))

/-- The output stage's own events: BYPASS_EXPIRY (R148; none occurs where a SET_OUTPUT_MODE was taken first, R149),
READBACK_CHANGE and OUTPUT_FAULT_DELAY_EXPIRY (R150), the field supply and the trips (R193), and what the section LEDs,
the field supply LED (R155) and the module LED (R156, R194) show. That a readback changes during a scan too is deduced
(log entry 12), that it changes while the reset line is held is the model's choice (log entry 36), and so is the module
LED's being dark without supply (log entry 26). That a trip stays through a loss and return of the field supply is
deduced (log entry 15), that an output trips only where its switch is closed and that the outcome of a try is an operand
are the model's choices (log entry 16), and that an expiry is due within the 10 ms of R148 before its time is read from
that accuracy (log entry 5). -/
def Obligations.OutputEvents : Prop :=
  ∀ (s : State) (sec : SectionNo),
    (∀ n, (sel s.outputs sec).mode = .bypass n →
      (n ≤ 10 → exec (.bypassExpiry sec) s = .next (settle s
        (s.setOutput sec { sel s.outputs sec with mode := .auto }))) ∧
      (10 < n → exec (.bypassExpiry sec) s = .next s)) ∧
    ((sel s.outputs sec).mode = .auto ∨ (sel s.outputs sec).mode = .forcedOff →
      exec (.bypassExpiry sec) s = .next s) ∧
    (s.phase ≠ .off →
      exec (.readbackChange sec .on) s = .next (settle s (s.setOutput sec
        { sel s.outputs sec with readback := true, fault := false })) ∧
      exec (.readbackChange sec .off) s = .next (settle s (s.setOutput sec
        { sel s.outputs sec with
          readback := false
          fault := (sel s.outputs sec).commanded && decide ((sel s.outputs sec).faultDelay = none) })) ∧
      exec (.readbackChange sec .between) s = .next s) ∧
    ((sel s.outputs sec).faultDelay = some 0 →
      exec (.outputFaultDelayExpiry sec) s = .next (settle s (s.setOutput sec
        { sel s.outputs sec with
          faultDelay := none
          fault := (sel s.outputs sec).commanded && !(sel s.outputs sec).readback }))) ∧
    ((sel s.outputs sec).faultDelay ≠ some 0 → exec (.outputFaultDelayExpiry sec) s = .next s) ∧
    exec .fieldSupplyLoss s = .next { s with fieldPresent := false } ∧
    exec .fieldSupplyReturn s = .next { s with fieldPresent := true } ∧
    ((sel s.outputs sec).commanded = true → s.fieldPresent = true → (sel s.outputs sec).tripped = false →
      s.phase ≠ .off →
      exec (.outputTrip sec) s = .next (s.setOutput sec
        { sel s.outputs sec with tripped := true })) ∧
    ((sel s.outputs sec).commanded = false ∨ s.fieldPresent = false ∨ (sel s.outputs sec).tripped = true ∨
      s.phase = .off → exec (.outputTrip sec) s = .next s) ∧
    ((sel s.outputs sec).commanded = true → (sel s.outputs sec).tripped = true →
      exec (.tripRetry sec true) s = .next (s.setOutput sec
        { sel s.outputs sec with tripped := false }) ∧
      exec (.tripRetry sec false) s = .next s) ∧
    ((sel s.outputs sec).commanded = false ∨ (sel s.outputs sec).tripped = false →
      ∀ within : Bool, exec (.tripRetry sec within) s = .next s) ∧
    (s.phase = .off → ∀ level, exec (.readbackChange sec level) s = .next s) ∧
    sectionLed s sec = (sel s.outputs sec).readback ∧ fieldLed s = s.fieldPresent ∧
    (s.phase = .off → moduleLed s = .dark) ∧
    (s.phase = .held ∨ s.phase = .scanning → moduleLed s = .greenFlashing) ∧
    (s.phase = .running →
      (s.link = .lost → moduleLed s = .redFlashing) ∧
      (s.link ≠ .lost → s.degraded = true → moduleLed s = .redSteady) ∧
      (s.link ≠ .lost → s.degraded = false → moduleLed s = .greenSteady))

/-! ### Access -/

/-- SIGN_ON (R161, R162, with the comparison of R158) and LOCKOUT_EXPIRY (R163). That an expiry is due within the
10 ms of R163 before its time is read from that accuracy (log entry 5). -/
def Obligations.SignOnRules : Prop :=
  ∀ (ch : ChannelNo) (s : State),
    (∀ (a : Args) (role : Role), Passes 5 everyRole ch a s → roleOf (argByte a 0).toNat = some role →
      (argWord a 1).toNat ≤ 999999 →
      (∀ ms, (sel s.channels ch).lockout = some ms →
        exec (.signOn ch a) s =
          .next (answered ch .lockedOut [byteOf (max 1 ((ms + 999) / 1000))] s)) ∧
      ((sel s.channels ch).lockout = none →
        (s.access.accepts role (argWord a 1).toNat = true →
          exec (.signOn ch a) s = .next (answered ch .done [role.byte, (s.role ch).byte]
            (s.onChannel ch fun c => { c with role := role, wrongCodes := 0 }))) ∧
        (s.access.accepts role (argWord a 1).toNat = false →
          ((sel s.channels ch).wrongCodes < 4 →
            exec (.signOn ch a) s = .next (answered ch .wrongCode
              [byteOf ((sel s.channels ch).wrongCodes + 1), 0]
              (s.onChannel ch fun c => { c with wrongCodes := c.wrongCodes + 1 }))) ∧
          ((sel s.channels ch).wrongCodes = 4 →
            exec (.signOn ch a) s = .next (answered ch .wrongCode [5, 60]
              (s.onChannel ch fun c => { c with wrongCodes := 5, lockout := some 60000 })))))) ∧
    (∀ role code, s.access.accepts role code = true ↔
      s.access.code role = some code ∨ (s.access.code role = none ∧ role = .quality ∧ code = 0)) ∧
    (∀ ms, (sel s.channels ch).lockout = some ms →
      (ms ≤ 10 → exec (.lockoutExpiry ch) s =
        .next (s.onChannel ch fun c => { c with wrongCodes := 0, lockout := none })) ∧
      (10 < ms → exec (.lockoutExpiry ch) s = .next s)) ∧
    ((sel s.channels ch).lockout = none → exec (.lockoutExpiry ch) s = .next s)

/-- R164: SIGN_OFF sets the channel's role to NONE and its draft to NONE, answers with the role bound before,
and leaves everything else. -/
def Obligations.SignOffRule : Prop :=
  ∀ (ch : ChannelNo) (a : Args) (s : State), Passes 0 everyRole ch a s →
    exec (.signOff ch a) s = .next (answered ch .done [(s.role ch).byte]
      (s.onChannel ch fun c => { c with role := .noRole, draft := none }))

/-- OPEN_RELEASE (R166), CLOSE_RELEASE and RELEASE_EXPIRY (R167): RELEASE is set exactly at a change of the
state, and an expiry that was due does not occur after an OPEN_RELEASE that started the timer again. That an expiry is
due within the 10 ms of R166 before its time is read from that accuracy (log entry 5). -/
def Obligations.ReleaseRules : Prop :=
  ∀ s : State,
    (∀ (ch : ChannelNo) (a : Args), Passes 2 [.quality] ch a s →
      ((argHalf a 0).toNat < 60 ∨ 900 < (argHalf a 0).toNat →
        exec (.openRelease ch a) s = .next (answered ch .badArgument [] s)) ∧
      (60 ≤ (argHalf a 0).toNat → (argHalf a 0).toNat ≤ 900 →
        exec (.openRelease ch a) s = .next (answered ch .done
          ([byteOf s.release.isSome.toNat] ++ halfBytes (argHalf a 0))
          (State.raise { s with release := some ((argHalf a 0).toNat * 1000) }
            ⟨false, false, false, s.release.isNone, false⟩)))) ∧
    (∀ (ch : ChannelNo) (a : Args), Passes 0 [.quality] ch a s →
      exec (.closeRelease ch a) s = .next (answered ch .done [byteOf s.release.isSome.toNat]
        (State.raise { s with release := none } ⟨false, false, false, s.release.isSome, false⟩))) ∧
    (∀ ms, s.release = some ms →
      (ms ≤ 10 → exec .releaseExpiry s = .next
        (State.raise { s with release := none } ⟨false, false, false, true, false⟩)) ∧
      (10 < ms → exec .releaseExpiry s = .next s)) ∧
    (s.release = none → exec .releaseExpiry s = .next s)

/-! ### The channel interface -/

/-- MODULE_INFO (R188), READ_EVENTS (R186) and SET_EVENT_MASK (R185). -/
def Obligations.InfoAndEvents : Prop :=
  ∀ (ch : ChannelNo) (a : Args) (s : State) (info : Byte),
    info = bitsByte [decide (s.startCause = .busReset), s.degraded, s.release.isSome,
      decide (s.link = .recovered)] →
    (Passes 1 everyRole ch a s →
      (argByte a 0 = 0 → exec (.moduleInfo ch a) s = .next (answered ch .done
        ([info] ++ numBytes s.startFaults ++ numBytes s.slots.length ++
          numBytes (s.slots.filter fun e => e.2.body.isNone).length ++ [byteOf s.proposals.length])
        { s with link := if s.link = .recovered then .present else s.link })) ∧
      (argByte a 0 = 1 → exec (.moduleInfo ch a) s = .next (answered ch .done
        ([info, byteOf s.queue.length, byteOf s.writer.isSome.toNat] ++
          numBytes (s.release.elim 0 fun ms => max 1 ((ms + 999) / 1000)))
        { s with link := if s.link = .recovered then .present else s.link })) ∧
      (1 < (argByte a 0).toNat → exec (.moduleInfo ch a) s = .next (answered ch .badArgument [] s)) ∧
      (32 ≤ (argByte a 0).toNat → exec (.setEventMask ch a) s = .next (answered ch .badArgument [] s)) ∧
      (∀ m : EventSet, m.byte = argByte a 0 →
        exec (.setEventMask ch a) s = .next (answered ch .done
          [(sel s.channels ch).mask.byte, (sel s.channels ch).flags.byte]
          (s.onChannel ch fun c => { c with mask := m })))) ∧
    (Passes 0 everyRole ch a s →
      exec (.readEvents ch a) s = .next (answered ch .done
        [(sel s.channels ch).flags.byte, (sel s.channels ch).mask.byte]
        (s.onChannel ch fun c => { c with flags := ⟨false, false, false, false, false⟩ })))

/-- ANSWER_ACKNOWLEDGE (R176), REQUEST_ABANDONMENT (R177), CHANNEL_RESET (R178, R179) and CHANNEL_RESET_END
(R178), each on its own channel record alone. -/
def Obligations.HandshakeRows : Prop :=
  ∀ (ch : ChannelNo) (s : State), s.exchanging = true → s.link ≠ .lost →
    ((sel s.channels ch).resetHeld = false →
      ((sel s.channels ch).handshake = .answered → exec (.answerAcknowledge ch) s =
        .next (s.onChannel ch fun c => { c with handshake := .idle, armed := true })) ∧
      (∀ wanted req, (sel s.channels ch).handshake = .working wanted req →
        exec (.requestAbandonment ch) s =
          .next (s.onChannel ch fun c => { c with handshake := .working false req }) ∧
        exec (.channelReset ch) s = .next (s.onChannel ch fun c =>
          { c with
            handshake := .working false req, armed := false, resetHeld := true,
            answer := ⟨0, Vector.replicate 10 0⟩,
            flags := ⟨false, false, false, false, false⟩, mask := ⟨false, false, false, false, false⟩,
            role := .noRole, draft := none, cursor := .noCursor })) ∧
      ((sel s.channels ch).handshake = .idle ∨ (sel s.channels ch).handshake = .answered →
        exec (.channelReset ch) s = .next (s.onChannel ch fun c =>
          { c with
            handshake := .idle, armed := false, resetHeld := true, answer := ⟨0, Vector.replicate 10 0⟩,
            flags := ⟨false, false, false, false, false⟩, mask := ⟨false, false, false, false, false⟩,
            role := .noRole, draft := none, cursor := .noCursor }))) ∧
    ((sel s.channels ch).resetHeld = true →
      exec (.channelReset ch) s = .next s ∧
      exec (.channelResetEnd ch true) s = .next (s.onChannel ch fun c => { c with resetHeld := false }) ∧
      ((sel s.channels ch).handshake = .idle → exec (.channelResetEnd ch false) s =
        .next (s.onChannel ch fun c => { c with resetHeld := false, armed := true })) ∧
      ((sel s.channels ch).handshake ≠ .idle → exec (.channelResetEnd ch false) s =
        .next (s.onChannel ch fun c => { c with resetHeld := false })))

/-- IMAGE_EXCHANGE (R180, R181, R173, R176 to R178): a lost link becomes RECOVERED, the timer starts again and
the input image is formed; an image with REQ and RESET clear everywhere arms IDLE channels, acknowledges
ANSWERED ones and abandons WORKING ones; an image that brings one request on one channel, the others IDLE,
armed and clear, is that request; and any image, with RESET set on some channels and REQ on others, is taken channel
by channel. Log entry 3 says when the input image is formed, and log entry 2 that the channels are taken from 1 to 4.
-/
def Obligations.ExchangeOfImages : Prop :=
  ∀ (image : OutputImage) (s u : State), s.exchanging = true →
    u = { s with
      link := if s.link = .lost then .recovered else s.link
      linkTimer := some 200
      inputImage := formImage { s with link := if s.link = .lost then .recovered else s.link,
                                       linkTimer := some 200 } } →
    ((∀ ch, (controlByte image ch).getLsbD 0 = false ∧ (controlByte image ch).getLsbD 1 = false) →
      exec (.imageExchange image) s = .next
        { u with channels := each s.channels fun _ c =>
            if c.resetHeld then
              { c with resetHeld := false, armed := c.armed || decide (c.handshake = .idle) }
            else
              match c.handshake with
              | .idle => { c with armed := true }
              | .working _ req => { c with handshake := .working false req }
              | .answered => { c with handshake := .idle, armed := true } }) ∧
    (∀ (ch : ChannelNo) (c : Instr), c.wf = true →
      (controlByte image ch).getLsbD 0 = true → (controlByte image ch).getLsbD 1 = false →
      (∀ ch', ch' ≠ ch →
        (controlByte image ch').getLsbD 0 = false ∧ (controlByte image ch').getLsbD 1 = false ∧
        (sel s.channels ch').handshake = .idle ∧ (sel s.channels ch').armed = true ∧
        (sel s.channels ch').resetHeld = false) →
      (sel s.channels ch).resetHeld = false →
      requestParts c = some (ch, requestCode image ch, requestArgs image ch) →
      exec (.imageExchange image) s = exec c u) ∧
    (∀ v1 v2 v3 v4 : State, ControlTaken image 0 u v1 → ControlTaken image 1 v1 v2 → ControlTaken image 2 v2 v3 →
      ControlTaken image 3 v3 v4 → exec (.imageExchange image) s = .next v4)

/-- The input image (R172, R187, Tables 57, 58 and 52): the module area, and each channel's status byte,
answer code and result bytes. -/
def Obligations.InputImageLayout : Prop :=
  ∀ (s : State) (ch : ChannelNo),
    (formImage s)[4 + 12 * ch.val]? = some (bitsByte
      [(match (sel s.channels ch).handshake with | .idle => false | .working _ _ => true | .answered => false),
        decide ((sel s.channels ch).handshake = .answered),
        (sel s.channels ch).flags.meets (sel s.channels ch).mask && !(sel s.channels ch).resetHeld,
        (s.role ch).byte.getLsbD 0, (s.role ch).byte.getLsbD 1, s.ready]) ∧
    (formImage s)[5 + 12 * ch.val]? = some (sel s.channels ch).answer.code ∧
    (∀ i : Fin 10, (formImage s)[6 + 12 * ch.val + i.val]? = some ((sel s.channels ch).answer.result[i.val])) ∧
    (formImage s)[0]? = some (bitsByte
      [(sel s.outputs 0).readback, (sel s.outputs 1).readback, (sel s.outputs 2).readback,
        (sel s.outputs 3).readback, (sel s.outputs 0).fault, (sel s.outputs 1).fault,
        (sel s.outputs 2).fault, (sel s.outputs 3).fault]) ∧
    (s.ready = false → (formImage s)[1]? = some 0 ∧ (formImage s)[2]? = some 0 ∧ (formImage s)[3]? = some 0) ∧
    (s.ready = true →
      (formImage s)[1]? = some (byteOf (1 + (if s.degraded then 2 else 0) +
        (if s.link = .recovered then 4 else 0) + 8 * s.proposals.length)) ∧
      (formImage s)[2]? = some (byteOf ((sel s.sections 0).state.code + 4 * (sel s.sections 1).state.code +
        16 * (sel s.sections 2).state.code + 64 * (sel s.sections 3).state.code)) ∧
      (formImage s)[3]? = some (byteOf ((List.finRange 32).filter fun st : StationNo =>
        (sel s.stations st).persist.enrolled &&
          decide (derivedState (sel s.stations st) ≠ .conforming)).length))

/-- LINK_LOSS (R180, R153): every channel reset as by the onset of a channel reset, reset held as it was, an
IDLE channel armed unless held; a BYPASS output returns to AUTO; the link state becomes LOST. After an exchange that
started the timer again no loss occurs. That an expiry is due within the 10 ms of R180 before its time is read from
that accuracy (log entry 5). -/
def Obligations.LinkLossRule : Prop :=
  (∀ (s u : State) (ms : Nat), s.exchanging = true → s.linkTimer = some ms → ms ≤ 10 →
    u = { s with
      link := .lost
      linkTimer := none
      outputs := each s.outputs fun _ o =>
        match o.mode with | .auto => o | .forcedOff => o | .bypass _ => { o with mode := .auto }
      channels := each s.channels fun _ c =>
        { c with
          handshake := match c.handshake with
            | .idle => .idle | .working _ req => .working false req | .answered => .idle
          armed := match c.handshake with
            | .idle => !c.resetHeld | .working _ _ => false | .answered => !c.resetHeld
          answer := ⟨0, Vector.replicate 10 0⟩
          flags := ⟨false, false, false, false, false⟩, mask := ⟨false, false, false, false, false⟩
          role := .noRole, draft := none, cursor := .noCursor } } →
    exec .linkLoss s = .next (settle s u)) ∧
  (∀ s : State, (s.exchanging = false ∨ s.linkTimer = none ∨ ∃ ms, s.linkTimer = some ms ∧ 10 < ms) →
    exec .linkLoss s = .next s)

/-! ### Module resets and the start-up scan -/

/-- POWER_ON, BUS_RESET, BUS_RESET_LINE_ASSERTED and LOGIC_SUPPLY_LOSS (R87, R88, R182, R194), the states they leave
given whole: the working form of every block and every timer is discarded, and a reset reads the slots of the array
afresh. The model's choices: the blank values of what is discarded (log entry 8), the readbacks, which are operands of a
reset and stay when the line is asserted (log entry 13), the field supply's presence, which is kept (log entry 14), the
image last returned, which is kept (log entry 3), and a POWER_ON with the reset line active, which holds the module
(log entry 24). And what is left of a write that is cut short (R87), as an operand says (log entry 9): nothing with the
writer idle, the old content, the new content or a failed record of a record write, of a proposal item's slot the parts
its write concerns, and of a scan's own writes any that were not begun, done or cut short (R88, R91). -/
def Obligations.ModuleResets : Prop :=
  (∀ (i : Interruption) (terminals : Bank 4 Bool) (s d : State),
    d = { pending := s.pending, phase := .off, resetLine := s.resetLine, startCause := s.startCause, startFaults := 0
          slots := [], freed := [], digests := Vector.replicate 32 (Vector.replicate 15 ⟨0, 0⟩)
          proposals := [], lastNumber := 0, nextStamp := 0
          channels := Vector.replicate 4
            { handshake := .idle, armed := true, resetHeld := false, answer := ⟨0, Vector.replicate 10 0⟩
              flags := ⟨false, false, false, false, false⟩, mask := ⟨false, false, false, false, false⟩
              role := .noRole, draft := none, cursor := .noCursor, wrongCodes := 0, lockout := none }
          array := cutArray i s, queue := [], writer := none, degraded := false
          stations := Vector.replicate 32 ⟨⟨false, 0, 10, 1⟩, none, none, false, false, false, [], false⟩
          sections := Vector.replicate 4 ⟨⟨1, 600⟩, .steady⟩
          outputs := Vector.replicate 4 ⟨.auto, false, false, false, none, false⟩
          fieldPresent := s.fieldPresent, release := none, access := ⟨none, none, none, 900⟩
          link := .present, linkTimer := none, inputImage := s.inputImage } →
    exec (.logicSupplyLoss i) s = .next d ∧
    (s.resetLine = false → exec (.powerOn i terminals) s = .next
      { d with
        phase := .scanning, startCause := .powerOn, linkTimer := some 200
        slots := (readSlots (cutArray i s)).slots, startFaults := (readSlots (cutArray i s)).faults
        outputs := each terminals fun _ level => ⟨.auto, false, level, false, none, false⟩ }) ∧
    (s.resetLine = true → exec (.powerOn i terminals) s = .next
      { d with
        phase := .held
        outputs := each terminals fun _ level => ⟨.auto, false, level, false, none, false⟩ }) ∧
    (s.phase ≠ .off → exec (.busReset i terminals) s = .next
      { d with
        phase := .scanning, resetLine := false, startCause := .busReset, linkTimer := some 200
        slots := (readSlots (cutArray i s)).slots, startFaults := (readSlots (cutArray i s)).faults
        outputs := each terminals fun _ level => ⟨.auto, false, level, false, none, false⟩ }) ∧
    (s.phase ≠ .off → exec (.busResetLineAsserted i) s = .next
      { d with
        phase := .held, resetLine := true
        outputs := each s.outputs fun _ o => ⟨.auto, false, o.readback, false, none, false⟩ }) ∧
    (s.phase = .off → exec (.busReset i terminals) s = .next { s with resetLine := false } ∧
      exec (.busResetLineAsserted i) s = .next { s with resetLine := true })) ∧
  (∀ t : State,
    (t.phase = .held → t.exchanging = false ∧ t.ready = false ∧ moduleLed t = .greenFlashing) ∧
    (t.phase = .scanning → t.exchanging = true ∧ t.ready = false ∧ moduleLed t = .greenFlashing) ∧
    (t.phase = .off → t.exchanging = false ∧ t.ready = false ∧ ∀ sec, t.driven sec = false)) ∧
  (∀ (i : Interruption) (s : State), s.phase ≠ .scanning →
      (s.writer = none → cutArray i s = s.array) ∧
      (∀ c, s.writer = some (.moduleRec c) → cutArray i s =
        { s.array with moduleRec := match i.record with
            | .old => s.array.moduleRec | .new => .valid c | .torn => .failed }) ∧
      (∀ n c, s.writer = some (.sect n c) → cutArray i s =
        { s.array with sections := upd s.array.sections n (match i.record with
            | .old => sel s.array.sections n | .new => .valid c | .torn => .failed) }) ∧
      (∀ n c, s.writer = some (.station n c) → cutArray i s =
        { s.array with stations := upd s.array.stations n (match i.record with
            | .old => sel s.array.stations n | .new => .valid c | .torn => .failed) }) ∧
      (∀ ch number plans results p, s.writer = some (.proposal ch number plans results) →
        plans[results.length]? = some p → workingWf s.slots = true → s.array.wf = true → p.slot < 2048 →
        (∀ n, n ≠ p.slot → (cutArray i s).slot n = s.array.slot n) ∧
        (p.kind = .set → (cutArray i s).slot p.slot = ⟨(s.array.slot p.slot).header, match i.body with
          | .old => (s.array.slot p.slot).body | .new => p.body | .torn => none⟩) ∧
        (p.kind = .retire → (cutArray i s).slot p.slot = ⟨match i.header with
          | .old => (s.array.slot p.slot).header | .new => .free | .torn => .failed,
            (s.array.slot p.slot).body⟩) ∧
        (p.kind = .create → i.header = .old → (cutArray i s).slot p.slot = ⟨(s.array.slot p.slot).header,
          match i.body with | .old => (s.array.slot p.slot).body | .new => p.body | .torn => none⟩) ∧
        (p.kind = .create → i.header ≠ .old → (cutArray i s).slot p.slot = ⟨match i.header with
          | .old => (s.array.slot p.slot).header | .new => .entry p.key p.cls p.partner | .torn => .failed,
            p.body⟩))) ∧
  (∀ (i : Interruption) (s : State), s.phase = .scanning → s.writer = none → s.array.wf = true →
    (∀ n,
      ((s.array.slot n).header = .free ∨ slotGet (partnerPass s.slots) n ≠ none →
        (cutArray i s).slot n = s.array.slot n) ∧
      ((s.array.slot n).header ≠ .free → slotGet (partnerPass s.slots) n = none → (cutArray i s).slot n =
        ⟨match (i.written.find? fun x => x.1 == .slot n).map Prod.snd with
          | none => (s.array.slot n).header | some .old => (s.array.slot n).header
          | some .new => .free | some .torn => .failed,
          (s.array.slot n).body⟩)) ∧
    (∀ st, sel (cutArray i s).stations st = match sel s.array.stations st with
      | .valid p => .valid p
      | .failed => if (i.written.find? fun x => x.1 == .station st).map Prod.snd = some .new
          then .valid ⟨false, 0, 10, 1⟩ else .failed) ∧
    (∀ sec, sel (cutArray i s).sections sec = match sel s.array.sections sec with
      | .valid p => .valid p
      | .failed => if (i.written.find? fun x => x.1 == .sect sec).map Prod.snd = some .new
          then .valid ⟨1, 600⟩ else .failed) ∧
    (cutArray i s).moduleRec = match s.array.moduleRec with
      | .valid c => .valid c
      | .failed => if (i.written.find? fun x => x.1 == .moduleRec).map Prod.snd = some .new
          then .valid ⟨none, none, none, 900⟩ else .failed)

/-- R88: the reading of one entry slot, by how its header and its body read, and the reading of the array slot after
slot. R89: after the partner pass every entry that names a partner has it in the table, naming it in return, and two
such entries that are both ACTIVE have equal revisions (R7); no entry is added. An entry without a partner stays as it
is; so does one whose partner is present and names it in return, but for two that are ACTIVE at unequal revisions, which
stay DAMAGED; an entry whose partner is absent, or does not name it in return, is freed. A body whose check agrees reads
as valid where its bounds are in order, its value lies within them and its revision is not 0 (R72, R5). -/
def Obligations.ScanSettlesSlots : Prop :=
  (∀ (r : SlotReading) (n : Nat) (c : NvSlot),
    (c.header = .free → readSlot r (n, c) = r) ∧
    (c.header = .failed → readSlot r (n, c) = ⟨r.slots, r.faults + 1⟩) ∧
    (∀ k cls q, c.header = .entry k cls q →
      (∀ e, entryAt r.slots k = some e → readSlot r (n, c) = ⟨r.slots, r.faults + 1⟩) ∧
      (entryAt r.slots k = none →
        (∀ b, c.body = some b → b.ok = true →
          readSlot r (n, c) = ⟨r.slots ++ [(n, ⟨k, cls, q, some b⟩)], r.faults⟩) ∧
        (c.body = none ∨ (∃ b, c.body = some b ∧ b.ok = false) →
          readSlot r (n, c) = ⟨r.slots ++ [(n, ⟨k, cls, q, none⟩)], r.faults + 1⟩)))) ∧
  (∀ m : SlotMap Entry, KeysUnique m → ∀ (e : Entry), e ∈ (partnerPass m).map Prod.snd →
    (∃ e' ∈ m.map Prod.snd, e'.key = e.key ∧ e'.cls = e.cls ∧ e'.partner = e.partner ∧
      (e.body = e'.body ∨ e.body = none)) ∧
    (∀ q, e.partner = some q → ∃ d, entryAt (partnerPass m) { e.key with param := q } = some d ∧
      d.partner = some e.key.param ∧
      (∀ b b', e.body = some b → d.body = some b' → b.revision = b'.revision))) ∧
  (∀ m : SlotMap Entry, KeysUnique m → ∀ (n : Nat) (e : Entry), (n, e) ∈ m →
    (e.partner = none → (n, e) ∈ partnerPass m) ∧
    (∀ q, e.partner = some q →
      (∀ d, entryAt m { e.key with param := q } = some d → d.partner = some e.key.param →
        ((∀ b b', e.body = some b → d.body = some b' → b.revision = b'.revision) → (n, e) ∈ partnerPass m) ∧
        (∀ b b', e.body = some b → d.body = some b' → b.revision ≠ b'.revision →
          (n, { e with body := none }) ∈ partnerPass m)) ∧
      ((∀ d, entryAt m { e.key with param := q } = some d → d.partner ≠ some e.key.param) →
        ∀ x ∈ partnerPass m, x.2.key ≠ e.key))) ∧
  (∀ a : NvArray, readSlots a = a.slots.foldl readSlot ⟨[], 0⟩) ∧
  (∀ b : Body, b.ok = true ↔
    (∀ lo hi, b.low = some lo → b.high = some hi → lo.toInt ≤ hi.toInt) ∧
    (∀ lo, b.low = some lo → lo.toInt ≤ b.value.toInt) ∧ (∀ hi, b.high = some hi → b.value.toInt ≤ hi.toInt) ∧
    1 ≤ b.revision.toNat)

/-- START_UP_SCAN_END (R92), the state it leaves given whole: the partner pass (which the model makes at this command,
log entry 7), the digests built whole (R35), the records loaded with failed ones as delivered (R90), unenrolled stations
idle and enrolled ones rebuilt with their lists of DAMAGED parameters and overflow (R119, R100), the sections recomputed
1 to 4 (R142) with the record writes that asks for, the scan's own writes in the array (R91), the store NORMAL, READY
set, and STORE set on the channels not held in reset when a start fault was counted (R184). With them the sections'
records after the recompute, the array's contents after the scan's own writes, and what is counted (R91): the entries
that the pass takes from ACTIVE, and the failed records. That a write of the scan that fails leaves the old content, the
new content or a failed check, as an operand says, is the model's choice (log entry 9); R91 has the next scan find the
fault again, which the first and the last show. -/
def Obligations.ScanEnd : Prop :=
  (∀ (w : ScanWrites) (s u v : State) (m : SlotMap Entry) (arr : NvArray) (stations : Bank 32 StationRec)
      (sections : Bank 4 SectionPersist), s.phase = .scanning →
    (∀ sec, (sel s.outputs sec).mode = .auto) →
    m = partnerPass s.slots → arr = scanWrites .new w m s.array →
    (∀ st p, sel s.array.stations st = .valid p → p.enrolled = false →
      sel stations st = ⟨p, none, none, false, false, false, [], false⟩) →
    (∀ st p, sel s.array.stations st = .valid p → p.enrolled = true →
      sel stations st =
        { persist := p, holder := none, timer := some (p.window * 1000), stale := false, digestSeen := false,
          pending := false
          list := ((damagedParams m st p.format).take 8).map fun x => .param x .damaged none
          overflow := decide (8 < (damagedParams m st p.format).length) }) →
    (∀ st, sel s.array.stations st = .failed →
      sel stations st = ⟨⟨false, 0, 10, 1⟩, none, none, false, false, false, [], false⟩) →
    (∀ sec, sel sections sec = match sel s.array.sections sec with | .valid p => p | .failed => ⟨1, 600⟩) →
    u = { s with
      slots := m
      digests := rebuildDigests m
      startFaults := s.startFaults + passFaults s.slots + recordFaults s.array
      stations := stations
      sections := each sections fun _ p => ⟨p, .steady⟩
      access := match s.array.moduleRec with | .valid c => c | .failed => ⟨none, none, none, 900⟩
      array := arr } →
    v = recompute 3 (recompute 2 (recompute 1 (recompute 0 u))) →
    exec (.startUpScanEnd w) s = .next
      { v with
        phase := .running
        degraded := false
        channels := each s.channels fun _ c =>
          if u.startFaults ≠ 0 ∧ c.resetHeld = false then { c with flags := { c.flags with store := true } }
          else c } ∧
    (∀ sec,
      (u.enrolledIn sec = [] → sel v.sections sec = ⟨sel sections sec, .steady⟩) ∧
      (∀ f : FormatNo, u.enrolledIn sec ≠ [] → (∀ st ∈ u.enrolledIn sec, (sel stations st).persist.format = f) →
        sel v.sections sec = ⟨{ sel sections sec with format := f }, .steady⟩) ∧
      (∀ st ∈ u.enrolledIn sec, ∀ st' ∈ u.enrolledIn sec,
        (sel stations st).persist.format ≠ (sel stations st').persist.format →
        sel v.sections sec = ⟨sel sections sec, .split⟩)) ∧
    v = { u with sections := v.sections, queue := v.queue, writer := v.writer }) ∧
  (∀ (w : ScanWrites) (m : SlotMap Entry) (a : NvArray), a.wf = true →
    (∀ n, ((a.slot n).header = .free ∨ slotGet m n ≠ none → (scanWrites .new w m a).slot n = a.slot n) ∧
      ((a.slot n).header ≠ .free → slotGet m n = none → (scanWrites .new w m a).slot n =
        ⟨match (w.find? fun x => x.1 == .slot n).map Prod.snd with
          | none => .free | some .new => .free | some .old => (a.slot n).header | some .torn => .failed,
          (a.slot n).body⟩)) ∧
    (∀ st, sel (scanWrites .new w m a).stations st = match sel a.stations st with
      | .valid p => .valid p
      | .failed => if (w.find? fun x => x.1 == .station st).map Prod.snd ∈ [none, some .new]
          then .valid ⟨false, 0, 10, 1⟩ else .failed) ∧
    (∀ sec, sel (scanWrites .new w m a).sections sec = match sel a.sections sec with
      | .valid p => .valid p
      | .failed => if (w.find? fun x => x.1 == .sect sec).map Prod.snd ∈ [none, some .new]
          then .valid ⟨1, 600⟩ else .failed) ∧
    (scanWrites .new w m a).moduleRec = match a.moduleRec with
      | .valid c => .valid c
      | .failed => if (w.find? fun x => x.1 == .moduleRec).map Prod.snd ∈ [none, some .new]
          then .valid ⟨none, none, none, 900⟩ else .failed) ∧
  (∀ m : SlotMap Entry, workingWf m = true → KeysUnique m →
    passFaults m = (m.filter fun x => x.2.body.isSome &&
      ((slotGet (partnerPass m) x.1).bind Entry.body).isNone).length) ∧
  (∀ a : NvArray, recordFaults a =
    ((List.finRange 32).filter fun st => decide (sel a.stations st = .failed)).length +
      ((List.finRange 4).filter fun sec => decide (sel a.sections sec = .failed)).length +
      (if a.moduleRec = .failed then 1 else 0))

/-! ### Laws that every step keeps -/

/-- R145, R146 and R150 hold after every step that begins where they hold: no output is ON but as its mode
forms it, and OUTPUT_FAULT is as R150 forms it. -/
def Obligations.StepKeepsOutputLaw : Prop :=
  ∀ s t : State, OutputLaw s → step s = .next t → OutputLaw t

/-- R98 after every step: at most 8 records, no two for one parameter, at most one station-level record; and
R94: an unenrolled station's volatile part is empty. -/
def Obligations.StepKeepsListLaw : Prop :=
  ∀ s t : State, ListLaw s → IdleLaw s → step s = .next t → ListLaw t ∧ IdleLaw t

/-- R123 after every step: a STEADY section has every enrolled station on its format. -/
def Obligations.StepKeepsSectionLaw : Prop :=
  ∀ s t : State, SectionLaw s → step s = .next t → SectionLaw t

/-- R2 and R72 after every step: the working form and the array keep their canonical form within 2048 slots. And R1,
R5, R7, R10 and R27 after every step: no key twice, every ACTIVE entry's bounds in order and its value within them,
every slot that was freed without its pair one of a DAMAGED entry with a partner whose header reads as no entry's,
partners present and naming each other, and every expected pair the one computed whole from the table; on the laws of
the proposals and of the writer's work, which are kept too. -/
def Obligations.StepKeepsStoreLaw : Prop :=
  (∀ s t : State, StoreLaw s → step s = .next t → StoreLaw t) ∧
  (∀ s t : State, StoreLaw s → ProposalLaw s → TableLaw s → WritingLaw s → WorkLaw s →
    step s = .next t → TableLaw t)

/-- R51 to R53 and R38 after every step: the proposal list with its numbers, stamps and keys, and the drafts. And R74
after every step: a proposal is WRITING exactly when its item is queued or being written; with what that rests on, that
the open proposals fit the table and that the writer's plans are those formed from it; before READY nothing is queued or
being written (R88), and every section is STEADY, as the blank values of log entry 8 have it. -/
def Obligations.StepKeepsProposalLaw : Prop :=
  (∀ s t : State, ProposalLaw s → DraftLaw s → step s = .next t → ProposalLaw t ∧ DraftLaw t) ∧
  (∀ s t : State, StoreLaw s → ProposalLaw s → TableLaw s → WritingLaw s → WorkLaw s →
    step s = .next t → WritingLaw t ∧ WorkLaw t)
end

