-- ==== Sys2Proof/Laws/Banks.lean ====
section
/-! SUPPORT. Banks: what is read after a write, and when two banks are equal. -/

namespace Sys2Proof.Machine

variable {α β : Type} {n : Nat}

@[simp] theorem sel_upd_same (b : Bank n α) (i : Fin n) (x : α) : sel (upd b i x) i = x := by
  simp [sel, upd]

theorem sel_upd_ne (b : Bank n α) {i j : Fin n} (x : α) (h : j ≠ i) : sel (upd b i x) j = sel b j := by
  have : i.val ≠ j.val := fun e => h (Fin.ext e.symm)
  simp [sel, upd, this]

theorem sel_upd (b : Bank n α) (i j : Fin n) (x : α) :
    sel (upd b i x) j = if j = i then x else sel b j := by
  by_cases h : j = i
  · simp [h]
  · simp [h, sel_upd_ne]

@[simp] theorem sel_each (b : Bank n α) (f : Fin n → α → β) (i : Fin n) : sel (each b f) i = f i (sel b i) := by
  simp [sel, each]

@[simp] theorem sel_replicate (x : α) (i : Fin n) : sel (Vector.replicate n x) i = x := by simp [sel]

/-- Two banks with the same records are equal. -/
theorem bank_ext {a b : Bank n α} (h : ∀ i, sel a i = sel b i) : a = b := by
  apply Vector.ext
  intro i hi
  exact h ⟨i, hi⟩

@[simp] theorem upd_sel (b : Bank n α) (i : Fin n) : upd b i (sel b i) = b :=
  bank_ext fun j => by rw [sel_upd]; split <;> simp_all

@[simp] theorem upd_upd (b : Bank n α) (i : Fin n) (x y : α) : upd (upd b i x) i y = upd b i y :=
  bank_ext fun j => by simp only [sel_upd]; split <;> rfl

/-- A bank in which every record is replaced by itself is the bank. -/
theorem each_id (b : Bank n α) (f : Fin n → α → α) (h : ∀ i, f i (sel b i) = sel b i) : each b f = b :=
  bank_ext fun i => by simp [h i]

theorem each_upd (b : Bank n α) (i : Fin n) (x : α) (f : Fin n → α → β) :
    each (upd b i x) f = upd (each b f) i (f i x) :=
  bank_ext fun j => by simp only [sel_each, sel_upd]; split <;> simp_all

theorem mem_pick {p : Fin n → Bool} {i : Fin n} : i ∈ pick p ↔ p i = true := by
  simp [pick]

end Sys2Proof.Machine
end

