-- ==== Sys2Proof/Laws/State.lean ====
section
/-! SUPPORT. One lemma per field per update of the state. -/

namespace Sys2Proof.Machine

/-! ### setChannel -/

@[simp] theorem setChannel_pending (s : State) (ch : ChannelNo) (c : Channel) :
    (s.setChannel ch c).pending = s.pending := rfl
@[simp] theorem setChannel_phase (s : State) (ch : ChannelNo) (c : Channel) :
    (s.setChannel ch c).phase = s.phase := rfl
@[simp] theorem setChannel_resetLine (s : State) (ch : ChannelNo) (c : Channel) :
    (s.setChannel ch c).resetLine = s.resetLine := rfl
@[simp] theorem setChannel_startCause (s : State) (ch : ChannelNo) (c : Channel) :
    (s.setChannel ch c).startCause = s.startCause := rfl
@[simp] theorem setChannel_startFaults (s : State) (ch : ChannelNo) (c : Channel) :
    (s.setChannel ch c).startFaults = s.startFaults := rfl
@[simp] theorem setChannel_slots (s : State) (ch : ChannelNo) (c : Channel) :
    (s.setChannel ch c).slots = s.slots := rfl
@[simp] theorem setChannel_freed (s : State) (ch : ChannelNo) (c : Channel) :
    (s.setChannel ch c).freed = s.freed := rfl
@[simp] theorem setChannel_digests (s : State) (ch : ChannelNo) (c : Channel) :
    (s.setChannel ch c).digests = s.digests := rfl
@[simp] theorem setChannel_proposals (s : State) (ch : ChannelNo) (c : Channel) :
    (s.setChannel ch c).proposals = s.proposals := rfl
@[simp] theorem setChannel_lastNumber (s : State) (ch : ChannelNo) (c : Channel) :
    (s.setChannel ch c).lastNumber = s.lastNumber := rfl
@[simp] theorem setChannel_nextStamp (s : State) (ch : ChannelNo) (c : Channel) :
    (s.setChannel ch c).nextStamp = s.nextStamp := rfl
@[simp] theorem setChannel_channels (s : State) (ch : ChannelNo) (c : Channel) :
    (s.setChannel ch c).channels = upd s.channels ch c := rfl
@[simp] theorem setChannel_array (s : State) (ch : ChannelNo) (c : Channel) :
    (s.setChannel ch c).array = s.array := rfl
@[simp] theorem setChannel_queue (s : State) (ch : ChannelNo) (c : Channel) :
    (s.setChannel ch c).queue = s.queue := rfl
@[simp] theorem setChannel_writer (s : State) (ch : ChannelNo) (c : Channel) :
    (s.setChannel ch c).writer = s.writer := rfl
@[simp] theorem setChannel_degraded (s : State) (ch : ChannelNo) (c : Channel) :
    (s.setChannel ch c).degraded = s.degraded := rfl
@[simp] theorem setChannel_stations (s : State) (ch : ChannelNo) (c : Channel) :
    (s.setChannel ch c).stations = s.stations := rfl
@[simp] theorem setChannel_sections (s : State) (ch : ChannelNo) (c : Channel) :
    (s.setChannel ch c).sections = s.sections := rfl
@[simp] theorem setChannel_outputs (s : State) (ch : ChannelNo) (c : Channel) :
    (s.setChannel ch c).outputs = s.outputs := rfl
@[simp] theorem setChannel_fieldPresent (s : State) (ch : ChannelNo) (c : Channel) :
    (s.setChannel ch c).fieldPresent = s.fieldPresent := rfl
@[simp] theorem setChannel_release (s : State) (ch : ChannelNo) (c : Channel) :
    (s.setChannel ch c).release = s.release := rfl
@[simp] theorem setChannel_access (s : State) (ch : ChannelNo) (c : Channel) :
    (s.setChannel ch c).access = s.access := rfl
@[simp] theorem setChannel_link (s : State) (ch : ChannelNo) (c : Channel) :
    (s.setChannel ch c).link = s.link := rfl
@[simp] theorem setChannel_linkTimer (s : State) (ch : ChannelNo) (c : Channel) :
    (s.setChannel ch c).linkTimer = s.linkTimer := rfl
@[simp] theorem setChannel_inputImage (s : State) (ch : ChannelNo) (c : Channel) :
    (s.setChannel ch c).inputImage = s.inputImage := rfl

/-! ### onChannel -/

@[simp] theorem onChannel_pending (s : State) (ch : ChannelNo) (f : Channel → Channel) :
    (s.onChannel ch f).pending = s.pending := rfl
@[simp] theorem onChannel_phase (s : State) (ch : ChannelNo) (f : Channel → Channel) :
    (s.onChannel ch f).phase = s.phase := rfl
@[simp] theorem onChannel_resetLine (s : State) (ch : ChannelNo) (f : Channel → Channel) :
    (s.onChannel ch f).resetLine = s.resetLine := rfl
@[simp] theorem onChannel_startCause (s : State) (ch : ChannelNo) (f : Channel → Channel) :
    (s.onChannel ch f).startCause = s.startCause := rfl
@[simp] theorem onChannel_startFaults (s : State) (ch : ChannelNo) (f : Channel → Channel) :
    (s.onChannel ch f).startFaults = s.startFaults := rfl
@[simp] theorem onChannel_slots (s : State) (ch : ChannelNo) (f : Channel → Channel) :
    (s.onChannel ch f).slots = s.slots := rfl
@[simp] theorem onChannel_freed (s : State) (ch : ChannelNo) (f : Channel → Channel) :
    (s.onChannel ch f).freed = s.freed := rfl
@[simp] theorem onChannel_digests (s : State) (ch : ChannelNo) (f : Channel → Channel) :
    (s.onChannel ch f).digests = s.digests := rfl
@[simp] theorem onChannel_proposals (s : State) (ch : ChannelNo) (f : Channel → Channel) :
    (s.onChannel ch f).proposals = s.proposals := rfl
@[simp] theorem onChannel_lastNumber (s : State) (ch : ChannelNo) (f : Channel → Channel) :
    (s.onChannel ch f).lastNumber = s.lastNumber := rfl
@[simp] theorem onChannel_nextStamp (s : State) (ch : ChannelNo) (f : Channel → Channel) :
    (s.onChannel ch f).nextStamp = s.nextStamp := rfl
@[simp] theorem onChannel_channels (s : State) (ch : ChannelNo) (f : Channel → Channel) :
    (s.onChannel ch f).channels = upd s.channels ch (f (sel s.channels ch)) := rfl
@[simp] theorem onChannel_array (s : State) (ch : ChannelNo) (f : Channel → Channel) :
    (s.onChannel ch f).array = s.array := rfl
@[simp] theorem onChannel_queue (s : State) (ch : ChannelNo) (f : Channel → Channel) :
    (s.onChannel ch f).queue = s.queue := rfl
@[simp] theorem onChannel_writer (s : State) (ch : ChannelNo) (f : Channel → Channel) :
    (s.onChannel ch f).writer = s.writer := rfl
@[simp] theorem onChannel_degraded (s : State) (ch : ChannelNo) (f : Channel → Channel) :
    (s.onChannel ch f).degraded = s.degraded := rfl
@[simp] theorem onChannel_stations (s : State) (ch : ChannelNo) (f : Channel → Channel) :
    (s.onChannel ch f).stations = s.stations := rfl
@[simp] theorem onChannel_sections (s : State) (ch : ChannelNo) (f : Channel → Channel) :
    (s.onChannel ch f).sections = s.sections := rfl
@[simp] theorem onChannel_outputs (s : State) (ch : ChannelNo) (f : Channel → Channel) :
    (s.onChannel ch f).outputs = s.outputs := rfl
@[simp] theorem onChannel_fieldPresent (s : State) (ch : ChannelNo) (f : Channel → Channel) :
    (s.onChannel ch f).fieldPresent = s.fieldPresent := rfl
@[simp] theorem onChannel_release (s : State) (ch : ChannelNo) (f : Channel → Channel) :
    (s.onChannel ch f).release = s.release := rfl
@[simp] theorem onChannel_access (s : State) (ch : ChannelNo) (f : Channel → Channel) :
    (s.onChannel ch f).access = s.access := rfl
@[simp] theorem onChannel_link (s : State) (ch : ChannelNo) (f : Channel → Channel) :
    (s.onChannel ch f).link = s.link := rfl
@[simp] theorem onChannel_linkTimer (s : State) (ch : ChannelNo) (f : Channel → Channel) :
    (s.onChannel ch f).linkTimer = s.linkTimer := rfl
@[simp] theorem onChannel_inputImage (s : State) (ch : ChannelNo) (f : Channel → Channel) :
    (s.onChannel ch f).inputImage = s.inputImage := rfl

/-! ### setStation -/

@[simp] theorem setStation_pending (s : State) (st : StationNo) (r : StationRec) :
    (s.setStation st r).pending = s.pending := rfl
@[simp] theorem setStation_phase (s : State) (st : StationNo) (r : StationRec) :
    (s.setStation st r).phase = s.phase := rfl
@[simp] theorem setStation_resetLine (s : State) (st : StationNo) (r : StationRec) :
    (s.setStation st r).resetLine = s.resetLine := rfl
@[simp] theorem setStation_startCause (s : State) (st : StationNo) (r : StationRec) :
    (s.setStation st r).startCause = s.startCause := rfl
@[simp] theorem setStation_startFaults (s : State) (st : StationNo) (r : StationRec) :
    (s.setStation st r).startFaults = s.startFaults := rfl
@[simp] theorem setStation_slots (s : State) (st : StationNo) (r : StationRec) :
    (s.setStation st r).slots = s.slots := rfl
@[simp] theorem setStation_freed (s : State) (st : StationNo) (r : StationRec) :
    (s.setStation st r).freed = s.freed := rfl
@[simp] theorem setStation_digests (s : State) (st : StationNo) (r : StationRec) :
    (s.setStation st r).digests = s.digests := rfl
@[simp] theorem setStation_proposals (s : State) (st : StationNo) (r : StationRec) :
    (s.setStation st r).proposals = s.proposals := rfl
@[simp] theorem setStation_lastNumber (s : State) (st : StationNo) (r : StationRec) :
    (s.setStation st r).lastNumber = s.lastNumber := rfl
@[simp] theorem setStation_nextStamp (s : State) (st : StationNo) (r : StationRec) :
    (s.setStation st r).nextStamp = s.nextStamp := rfl
@[simp] theorem setStation_channels (s : State) (st : StationNo) (r : StationRec) :
    (s.setStation st r).channels = s.channels := rfl
@[simp] theorem setStation_array (s : State) (st : StationNo) (r : StationRec) :
    (s.setStation st r).array = s.array := rfl
@[simp] theorem setStation_queue (s : State) (st : StationNo) (r : StationRec) :
    (s.setStation st r).queue = s.queue := rfl
@[simp] theorem setStation_writer (s : State) (st : StationNo) (r : StationRec) :
    (s.setStation st r).writer = s.writer := rfl
@[simp] theorem setStation_degraded (s : State) (st : StationNo) (r : StationRec) :
    (s.setStation st r).degraded = s.degraded := rfl
@[simp] theorem setStation_stations (s : State) (st : StationNo) (r : StationRec) :
    (s.setStation st r).stations = upd s.stations st r := rfl
@[simp] theorem setStation_sections (s : State) (st : StationNo) (r : StationRec) :
    (s.setStation st r).sections = s.sections := rfl
@[simp] theorem setStation_outputs (s : State) (st : StationNo) (r : StationRec) :
    (s.setStation st r).outputs = s.outputs := rfl
@[simp] theorem setStation_fieldPresent (s : State) (st : StationNo) (r : StationRec) :
    (s.setStation st r).fieldPresent = s.fieldPresent := rfl
@[simp] theorem setStation_release (s : State) (st : StationNo) (r : StationRec) :
    (s.setStation st r).release = s.release := rfl
@[simp] theorem setStation_access (s : State) (st : StationNo) (r : StationRec) :
    (s.setStation st r).access = s.access := rfl
@[simp] theorem setStation_link (s : State) (st : StationNo) (r : StationRec) :
    (s.setStation st r).link = s.link := rfl
@[simp] theorem setStation_linkTimer (s : State) (st : StationNo) (r : StationRec) :
    (s.setStation st r).linkTimer = s.linkTimer := rfl
@[simp] theorem setStation_inputImage (s : State) (st : StationNo) (r : StationRec) :
    (s.setStation st r).inputImage = s.inputImage := rfl

/-! ### setSectionRec -/

@[simp] theorem setSectionRec_pending (s : State) (sec : SectionNo) (r : SectionRec) :
    (s.setSectionRec sec r).pending = s.pending := rfl
@[simp] theorem setSectionRec_phase (s : State) (sec : SectionNo) (r : SectionRec) :
    (s.setSectionRec sec r).phase = s.phase := rfl
@[simp] theorem setSectionRec_resetLine (s : State) (sec : SectionNo) (r : SectionRec) :
    (s.setSectionRec sec r).resetLine = s.resetLine := rfl
@[simp] theorem setSectionRec_startCause (s : State) (sec : SectionNo) (r : SectionRec) :
    (s.setSectionRec sec r).startCause = s.startCause := rfl
@[simp] theorem setSectionRec_startFaults (s : State) (sec : SectionNo) (r : SectionRec) :
    (s.setSectionRec sec r).startFaults = s.startFaults := rfl
@[simp] theorem setSectionRec_slots (s : State) (sec : SectionNo) (r : SectionRec) :
    (s.setSectionRec sec r).slots = s.slots := rfl
@[simp] theorem setSectionRec_freed (s : State) (sec : SectionNo) (r : SectionRec) :
    (s.setSectionRec sec r).freed = s.freed := rfl
@[simp] theorem setSectionRec_digests (s : State) (sec : SectionNo) (r : SectionRec) :
    (s.setSectionRec sec r).digests = s.digests := rfl
@[simp] theorem setSectionRec_proposals (s : State) (sec : SectionNo) (r : SectionRec) :
    (s.setSectionRec sec r).proposals = s.proposals := rfl
@[simp] theorem setSectionRec_lastNumber (s : State) (sec : SectionNo) (r : SectionRec) :
    (s.setSectionRec sec r).lastNumber = s.lastNumber := rfl
@[simp] theorem setSectionRec_nextStamp (s : State) (sec : SectionNo) (r : SectionRec) :
    (s.setSectionRec sec r).nextStamp = s.nextStamp := rfl
@[simp] theorem setSectionRec_channels (s : State) (sec : SectionNo) (r : SectionRec) :
    (s.setSectionRec sec r).channels = s.channels := rfl
@[simp] theorem setSectionRec_array (s : State) (sec : SectionNo) (r : SectionRec) :
    (s.setSectionRec sec r).array = s.array := rfl
@[simp] theorem setSectionRec_queue (s : State) (sec : SectionNo) (r : SectionRec) :
    (s.setSectionRec sec r).queue = s.queue := rfl
@[simp] theorem setSectionRec_writer (s : State) (sec : SectionNo) (r : SectionRec) :
    (s.setSectionRec sec r).writer = s.writer := rfl
@[simp] theorem setSectionRec_degraded (s : State) (sec : SectionNo) (r : SectionRec) :
    (s.setSectionRec sec r).degraded = s.degraded := rfl
@[simp] theorem setSectionRec_stations (s : State) (sec : SectionNo) (r : SectionRec) :
    (s.setSectionRec sec r).stations = s.stations := rfl
@[simp] theorem setSectionRec_sections (s : State) (sec : SectionNo) (r : SectionRec) :
    (s.setSectionRec sec r).sections = upd s.sections sec r := rfl
@[simp] theorem setSectionRec_outputs (s : State) (sec : SectionNo) (r : SectionRec) :
    (s.setSectionRec sec r).outputs = s.outputs := rfl
@[simp] theorem setSectionRec_fieldPresent (s : State) (sec : SectionNo) (r : SectionRec) :
    (s.setSectionRec sec r).fieldPresent = s.fieldPresent := rfl
@[simp] theorem setSectionRec_release (s : State) (sec : SectionNo) (r : SectionRec) :
    (s.setSectionRec sec r).release = s.release := rfl
@[simp] theorem setSectionRec_access (s : State) (sec : SectionNo) (r : SectionRec) :
    (s.setSectionRec sec r).access = s.access := rfl
@[simp] theorem setSectionRec_link (s : State) (sec : SectionNo) (r : SectionRec) :
    (s.setSectionRec sec r).link = s.link := rfl
@[simp] theorem setSectionRec_linkTimer (s : State) (sec : SectionNo) (r : SectionRec) :
    (s.setSectionRec sec r).linkTimer = s.linkTimer := rfl
@[simp] theorem setSectionRec_inputImage (s : State) (sec : SectionNo) (r : SectionRec) :
    (s.setSectionRec sec r).inputImage = s.inputImage := rfl

/-! ### setOutput -/

@[simp] theorem setOutput_pending (s : State) (sec : SectionNo) (o : Output) :
    (s.setOutput sec o).pending = s.pending := rfl
@[simp] theorem setOutput_phase (s : State) (sec : SectionNo) (o : Output) :
    (s.setOutput sec o).phase = s.phase := rfl
@[simp] theorem setOutput_resetLine (s : State) (sec : SectionNo) (o : Output) :
    (s.setOutput sec o).resetLine = s.resetLine := rfl
@[simp] theorem setOutput_startCause (s : State) (sec : SectionNo) (o : Output) :
    (s.setOutput sec o).startCause = s.startCause := rfl
@[simp] theorem setOutput_startFaults (s : State) (sec : SectionNo) (o : Output) :
    (s.setOutput sec o).startFaults = s.startFaults := rfl
@[simp] theorem setOutput_slots (s : State) (sec : SectionNo) (o : Output) :
    (s.setOutput sec o).slots = s.slots := rfl
@[simp] theorem setOutput_freed (s : State) (sec : SectionNo) (o : Output) :
    (s.setOutput sec o).freed = s.freed := rfl
@[simp] theorem setOutput_digests (s : State) (sec : SectionNo) (o : Output) :
    (s.setOutput sec o).digests = s.digests := rfl
@[simp] theorem setOutput_proposals (s : State) (sec : SectionNo) (o : Output) :
    (s.setOutput sec o).proposals = s.proposals := rfl
@[simp] theorem setOutput_lastNumber (s : State) (sec : SectionNo) (o : Output) :
    (s.setOutput sec o).lastNumber = s.lastNumber := rfl
@[simp] theorem setOutput_nextStamp (s : State) (sec : SectionNo) (o : Output) :
    (s.setOutput sec o).nextStamp = s.nextStamp := rfl
@[simp] theorem setOutput_channels (s : State) (sec : SectionNo) (o : Output) :
    (s.setOutput sec o).channels = s.channels := rfl
@[simp] theorem setOutput_array (s : State) (sec : SectionNo) (o : Output) :
    (s.setOutput sec o).array = s.array := rfl
@[simp] theorem setOutput_queue (s : State) (sec : SectionNo) (o : Output) :
    (s.setOutput sec o).queue = s.queue := rfl
@[simp] theorem setOutput_writer (s : State) (sec : SectionNo) (o : Output) :
    (s.setOutput sec o).writer = s.writer := rfl
@[simp] theorem setOutput_degraded (s : State) (sec : SectionNo) (o : Output) :
    (s.setOutput sec o).degraded = s.degraded := rfl
@[simp] theorem setOutput_stations (s : State) (sec : SectionNo) (o : Output) :
    (s.setOutput sec o).stations = s.stations := rfl
@[simp] theorem setOutput_sections (s : State) (sec : SectionNo) (o : Output) :
    (s.setOutput sec o).sections = s.sections := rfl
@[simp] theorem setOutput_outputs (s : State) (sec : SectionNo) (o : Output) :
    (s.setOutput sec o).outputs = upd s.outputs sec o := rfl
@[simp] theorem setOutput_fieldPresent (s : State) (sec : SectionNo) (o : Output) :
    (s.setOutput sec o).fieldPresent = s.fieldPresent := rfl
@[simp] theorem setOutput_release (s : State) (sec : SectionNo) (o : Output) :
    (s.setOutput sec o).release = s.release := rfl
@[simp] theorem setOutput_access (s : State) (sec : SectionNo) (o : Output) :
    (s.setOutput sec o).access = s.access := rfl
@[simp] theorem setOutput_link (s : State) (sec : SectionNo) (o : Output) :
    (s.setOutput sec o).link = s.link := rfl
@[simp] theorem setOutput_linkTimer (s : State) (sec : SectionNo) (o : Output) :
    (s.setOutput sec o).linkTimer = s.linkTimer := rfl
@[simp] theorem setOutput_inputImage (s : State) (sec : SectionNo) (o : Output) :
    (s.setOutput sec o).inputImage = s.inputImage := rfl

/-! ### setCursor -/

@[simp] theorem setCursor_pending (s : State) (ch : ChannelNo) (c : Cursor) :
    (s.setCursor ch c).pending = s.pending := rfl
@[simp] theorem setCursor_phase (s : State) (ch : ChannelNo) (c : Cursor) :
    (s.setCursor ch c).phase = s.phase := rfl
@[simp] theorem setCursor_resetLine (s : State) (ch : ChannelNo) (c : Cursor) :
    (s.setCursor ch c).resetLine = s.resetLine := rfl
@[simp] theorem setCursor_startCause (s : State) (ch : ChannelNo) (c : Cursor) :
    (s.setCursor ch c).startCause = s.startCause := rfl
@[simp] theorem setCursor_startFaults (s : State) (ch : ChannelNo) (c : Cursor) :
    (s.setCursor ch c).startFaults = s.startFaults := rfl
@[simp] theorem setCursor_slots (s : State) (ch : ChannelNo) (c : Cursor) :
    (s.setCursor ch c).slots = s.slots := rfl
@[simp] theorem setCursor_freed (s : State) (ch : ChannelNo) (c : Cursor) :
    (s.setCursor ch c).freed = s.freed := rfl
@[simp] theorem setCursor_digests (s : State) (ch : ChannelNo) (c : Cursor) :
    (s.setCursor ch c).digests = s.digests := rfl
@[simp] theorem setCursor_proposals (s : State) (ch : ChannelNo) (c : Cursor) :
    (s.setCursor ch c).proposals = s.proposals := rfl
@[simp] theorem setCursor_lastNumber (s : State) (ch : ChannelNo) (c : Cursor) :
    (s.setCursor ch c).lastNumber = s.lastNumber := rfl
@[simp] theorem setCursor_nextStamp (s : State) (ch : ChannelNo) (c : Cursor) :
    (s.setCursor ch c).nextStamp = s.nextStamp := rfl
@[simp] theorem setCursor_channels (s : State) (ch : ChannelNo) (c : Cursor) :
    (s.setCursor ch c).channels = upd s.channels ch { sel s.channels ch with cursor := c } := rfl
@[simp] theorem setCursor_array (s : State) (ch : ChannelNo) (c : Cursor) :
    (s.setCursor ch c).array = s.array := rfl
@[simp] theorem setCursor_queue (s : State) (ch : ChannelNo) (c : Cursor) :
    (s.setCursor ch c).queue = s.queue := rfl
@[simp] theorem setCursor_writer (s : State) (ch : ChannelNo) (c : Cursor) :
    (s.setCursor ch c).writer = s.writer := rfl
@[simp] theorem setCursor_degraded (s : State) (ch : ChannelNo) (c : Cursor) :
    (s.setCursor ch c).degraded = s.degraded := rfl
@[simp] theorem setCursor_stations (s : State) (ch : ChannelNo) (c : Cursor) :
    (s.setCursor ch c).stations = s.stations := rfl
@[simp] theorem setCursor_sections (s : State) (ch : ChannelNo) (c : Cursor) :
    (s.setCursor ch c).sections = s.sections := rfl
@[simp] theorem setCursor_outputs (s : State) (ch : ChannelNo) (c : Cursor) :
    (s.setCursor ch c).outputs = s.outputs := rfl
@[simp] theorem setCursor_fieldPresent (s : State) (ch : ChannelNo) (c : Cursor) :
    (s.setCursor ch c).fieldPresent = s.fieldPresent := rfl
@[simp] theorem setCursor_release (s : State) (ch : ChannelNo) (c : Cursor) :
    (s.setCursor ch c).release = s.release := rfl
@[simp] theorem setCursor_access (s : State) (ch : ChannelNo) (c : Cursor) :
    (s.setCursor ch c).access = s.access := rfl
@[simp] theorem setCursor_link (s : State) (ch : ChannelNo) (c : Cursor) :
    (s.setCursor ch c).link = s.link := rfl
@[simp] theorem setCursor_linkTimer (s : State) (ch : ChannelNo) (c : Cursor) :
    (s.setCursor ch c).linkTimer = s.linkTimer := rfl
@[simp] theorem setCursor_inputImage (s : State) (ch : ChannelNo) (c : Cursor) :
    (s.setCursor ch c).inputImage = s.inputImage := rfl

/-! ### setDraft -/

@[simp] theorem setDraft_pending (s : State) (ch : ChannelNo) (d : Option (List Change)) :
    (s.setDraft ch d).pending = s.pending := rfl
@[simp] theorem setDraft_phase (s : State) (ch : ChannelNo) (d : Option (List Change)) :
    (s.setDraft ch d).phase = s.phase := rfl
@[simp] theorem setDraft_resetLine (s : State) (ch : ChannelNo) (d : Option (List Change)) :
    (s.setDraft ch d).resetLine = s.resetLine := rfl
@[simp] theorem setDraft_startCause (s : State) (ch : ChannelNo) (d : Option (List Change)) :
    (s.setDraft ch d).startCause = s.startCause := rfl
@[simp] theorem setDraft_startFaults (s : State) (ch : ChannelNo) (d : Option (List Change)) :
    (s.setDraft ch d).startFaults = s.startFaults := rfl
@[simp] theorem setDraft_slots (s : State) (ch : ChannelNo) (d : Option (List Change)) :
    (s.setDraft ch d).slots = s.slots := rfl
@[simp] theorem setDraft_freed (s : State) (ch : ChannelNo) (d : Option (List Change)) :
    (s.setDraft ch d).freed = s.freed := rfl
@[simp] theorem setDraft_digests (s : State) (ch : ChannelNo) (d : Option (List Change)) :
    (s.setDraft ch d).digests = s.digests := rfl
@[simp] theorem setDraft_proposals (s : State) (ch : ChannelNo) (d : Option (List Change)) :
    (s.setDraft ch d).proposals = s.proposals := rfl
@[simp] theorem setDraft_lastNumber (s : State) (ch : ChannelNo) (d : Option (List Change)) :
    (s.setDraft ch d).lastNumber = s.lastNumber := rfl
@[simp] theorem setDraft_nextStamp (s : State) (ch : ChannelNo) (d : Option (List Change)) :
    (s.setDraft ch d).nextStamp = s.nextStamp := rfl
@[simp] theorem setDraft_channels (s : State) (ch : ChannelNo) (d : Option (List Change)) :
    (s.setDraft ch d).channels = upd s.channels ch { sel s.channels ch with draft := d } := rfl
@[simp] theorem setDraft_array (s : State) (ch : ChannelNo) (d : Option (List Change)) :
    (s.setDraft ch d).array = s.array := rfl
@[simp] theorem setDraft_queue (s : State) (ch : ChannelNo) (d : Option (List Change)) :
    (s.setDraft ch d).queue = s.queue := rfl
@[simp] theorem setDraft_writer (s : State) (ch : ChannelNo) (d : Option (List Change)) :
    (s.setDraft ch d).writer = s.writer := rfl
@[simp] theorem setDraft_degraded (s : State) (ch : ChannelNo) (d : Option (List Change)) :
    (s.setDraft ch d).degraded = s.degraded := rfl
@[simp] theorem setDraft_stations (s : State) (ch : ChannelNo) (d : Option (List Change)) :
    (s.setDraft ch d).stations = s.stations := rfl
@[simp] theorem setDraft_sections (s : State) (ch : ChannelNo) (d : Option (List Change)) :
    (s.setDraft ch d).sections = s.sections := rfl
@[simp] theorem setDraft_outputs (s : State) (ch : ChannelNo) (d : Option (List Change)) :
    (s.setDraft ch d).outputs = s.outputs := rfl
@[simp] theorem setDraft_fieldPresent (s : State) (ch : ChannelNo) (d : Option (List Change)) :
    (s.setDraft ch d).fieldPresent = s.fieldPresent := rfl
@[simp] theorem setDraft_release (s : State) (ch : ChannelNo) (d : Option (List Change)) :
    (s.setDraft ch d).release = s.release := rfl
@[simp] theorem setDraft_access (s : State) (ch : ChannelNo) (d : Option (List Change)) :
    (s.setDraft ch d).access = s.access := rfl
@[simp] theorem setDraft_link (s : State) (ch : ChannelNo) (d : Option (List Change)) :
    (s.setDraft ch d).link = s.link := rfl
@[simp] theorem setDraft_linkTimer (s : State) (ch : ChannelNo) (d : Option (List Change)) :
    (s.setDraft ch d).linkTimer = s.linkTimer := rfl
@[simp] theorem setDraft_inputImage (s : State) (ch : ChannelNo) (d : Option (List Change)) :
    (s.setDraft ch d).inputImage = s.inputImage := rfl

/-! ### raise -/

@[simp] theorem raise_pending (s : State) (e : EventSet) : (s.raise e).pending = s.pending := rfl
@[simp] theorem raise_phase (s : State) (e : EventSet) : (s.raise e).phase = s.phase := rfl
@[simp] theorem raise_resetLine (s : State) (e : EventSet) : (s.raise e).resetLine = s.resetLine := rfl
@[simp] theorem raise_startCause (s : State) (e : EventSet) : (s.raise e).startCause = s.startCause := rfl
@[simp] theorem raise_startFaults (s : State) (e : EventSet) : (s.raise e).startFaults = s.startFaults := rfl
@[simp] theorem raise_slots (s : State) (e : EventSet) : (s.raise e).slots = s.slots := rfl
@[simp] theorem raise_freed (s : State) (e : EventSet) : (s.raise e).freed = s.freed := rfl
@[simp] theorem raise_digests (s : State) (e : EventSet) : (s.raise e).digests = s.digests := rfl
@[simp] theorem raise_proposals (s : State) (e : EventSet) : (s.raise e).proposals = s.proposals := rfl
@[simp] theorem raise_lastNumber (s : State) (e : EventSet) : (s.raise e).lastNumber = s.lastNumber := rfl
@[simp] theorem raise_nextStamp (s : State) (e : EventSet) : (s.raise e).nextStamp = s.nextStamp := rfl
@[simp] theorem raise_channels (s : State) (e : EventSet) :
    (s.raise e).channels = each s.channels fun _ c => c.flag e := rfl
@[simp] theorem raise_array (s : State) (e : EventSet) : (s.raise e).array = s.array := rfl
@[simp] theorem raise_queue (s : State) (e : EventSet) : (s.raise e).queue = s.queue := rfl
@[simp] theorem raise_writer (s : State) (e : EventSet) : (s.raise e).writer = s.writer := rfl
@[simp] theorem raise_degraded (s : State) (e : EventSet) : (s.raise e).degraded = s.degraded := rfl
@[simp] theorem raise_stations (s : State) (e : EventSet) : (s.raise e).stations = s.stations := rfl
@[simp] theorem raise_sections (s : State) (e : EventSet) : (s.raise e).sections = s.sections := rfl
@[simp] theorem raise_outputs (s : State) (e : EventSet) : (s.raise e).outputs = s.outputs := rfl
@[simp] theorem raise_fieldPresent (s : State) (e : EventSet) :
    (s.raise e).fieldPresent = s.fieldPresent := rfl
@[simp] theorem raise_release (s : State) (e : EventSet) : (s.raise e).release = s.release := rfl
@[simp] theorem raise_access (s : State) (e : EventSet) : (s.raise e).access = s.access := rfl
@[simp] theorem raise_link (s : State) (e : EventSet) : (s.raise e).link = s.link := rfl
@[simp] theorem raise_linkTimer (s : State) (e : EventSet) : (s.raise e).linkTimer = s.linkTimer := rfl
@[simp] theorem raise_inputImage (s : State) (e : EventSet) : (s.raise e).inputImage = s.inputImage := rfl

/-! ### formOutputs -/

@[simp] theorem formOutputs_pending (s u : State) : (formOutputs s u).pending = u.pending := rfl
@[simp] theorem formOutputs_phase (s u : State) : (formOutputs s u).phase = u.phase := rfl
@[simp] theorem formOutputs_resetLine (s u : State) : (formOutputs s u).resetLine = u.resetLine := rfl
@[simp] theorem formOutputs_startCause (s u : State) : (formOutputs s u).startCause = u.startCause := rfl
@[simp] theorem formOutputs_startFaults (s u : State) : (formOutputs s u).startFaults = u.startFaults := rfl
@[simp] theorem formOutputs_slots (s u : State) : (formOutputs s u).slots = u.slots := rfl
@[simp] theorem formOutputs_freed (s u : State) : (formOutputs s u).freed = u.freed := rfl
@[simp] theorem formOutputs_digests (s u : State) : (formOutputs s u).digests = u.digests := rfl
@[simp] theorem formOutputs_proposals (s u : State) : (formOutputs s u).proposals = u.proposals := rfl
@[simp] theorem formOutputs_lastNumber (s u : State) : (formOutputs s u).lastNumber = u.lastNumber := rfl
@[simp] theorem formOutputs_nextStamp (s u : State) : (formOutputs s u).nextStamp = u.nextStamp := rfl
@[simp] theorem formOutputs_channels (s u : State) : (formOutputs s u).channels = u.channels := rfl
@[simp] theorem formOutputs_array (s u : State) : (formOutputs s u).array = u.array := rfl
@[simp] theorem formOutputs_queue (s u : State) : (formOutputs s u).queue = u.queue := rfl
@[simp] theorem formOutputs_writer (s u : State) : (formOutputs s u).writer = u.writer := rfl
@[simp] theorem formOutputs_degraded (s u : State) : (formOutputs s u).degraded = u.degraded := rfl
@[simp] theorem formOutputs_stations (s u : State) : (formOutputs s u).stations = u.stations := rfl
@[simp] theorem formOutputs_sections (s u : State) : (formOutputs s u).sections = u.sections := rfl
@[simp] theorem formOutputs_outputs (s u : State) :
    (formOutputs s u).outputs = each u.outputs fun sec o => if s.commandFormed sec = u.commandFormed sec then o else o.command (u.commandFormed sec) := rfl
@[simp] theorem formOutputs_fieldPresent (s u : State) :
    (formOutputs s u).fieldPresent = u.fieldPresent := rfl
@[simp] theorem formOutputs_release (s u : State) : (formOutputs s u).release = u.release := rfl
@[simp] theorem formOutputs_access (s u : State) : (formOutputs s u).access = u.access := rfl
@[simp] theorem formOutputs_link (s u : State) : (formOutputs s u).link = u.link := rfl
@[simp] theorem formOutputs_linkTimer (s u : State) : (formOutputs s u).linkTimer = u.linkTimer := rfl
@[simp] theorem formOutputs_inputImage (s u : State) : (formOutputs s u).inputImage = u.inputImage := rfl

/-! ### settle -/

@[simp] theorem settle_pending (s u : State) : (settle s u).pending = u.pending := rfl
@[simp] theorem settle_phase (s u : State) : (settle s u).phase = u.phase := rfl
@[simp] theorem settle_resetLine (s u : State) : (settle s u).resetLine = u.resetLine := rfl
@[simp] theorem settle_startCause (s u : State) : (settle s u).startCause = u.startCause := rfl
@[simp] theorem settle_startFaults (s u : State) : (settle s u).startFaults = u.startFaults := rfl
@[simp] theorem settle_slots (s u : State) : (settle s u).slots = u.slots := rfl
@[simp] theorem settle_freed (s u : State) : (settle s u).freed = u.freed := rfl
@[simp] theorem settle_digests (s u : State) : (settle s u).digests = u.digests := rfl
@[simp] theorem settle_proposals (s u : State) : (settle s u).proposals = u.proposals := rfl
@[simp] theorem settle_lastNumber (s u : State) : (settle s u).lastNumber = u.lastNumber := rfl
@[simp] theorem settle_nextStamp (s u : State) : (settle s u).nextStamp = u.nextStamp := rfl
@[simp] theorem settle_channels (s u : State) :
    (settle s u).channels = each u.channels fun _ c => c.flag (causes s (formOutputs s u)) := rfl
@[simp] theorem settle_array (s u : State) : (settle s u).array = u.array := rfl
@[simp] theorem settle_queue (s u : State) : (settle s u).queue = u.queue := rfl
@[simp] theorem settle_writer (s u : State) : (settle s u).writer = u.writer := rfl
@[simp] theorem settle_degraded (s u : State) : (settle s u).degraded = u.degraded := rfl
@[simp] theorem settle_stations (s u : State) : (settle s u).stations = u.stations := rfl
@[simp] theorem settle_sections (s u : State) : (settle s u).sections = u.sections := rfl
@[simp] theorem settle_outputs (s u : State) : (settle s u).outputs = (formOutputs s u).outputs := rfl
@[simp] theorem settle_fieldPresent (s u : State) : (settle s u).fieldPresent = u.fieldPresent := rfl
@[simp] theorem settle_release (s u : State) : (settle s u).release = u.release := rfl
@[simp] theorem settle_access (s u : State) : (settle s u).access = u.access := rfl
@[simp] theorem settle_link (s u : State) : (settle s u).link = u.link := rfl
@[simp] theorem settle_linkTimer (s u : State) : (settle s u).linkTimer = u.linkTimer := rfl
@[simp] theorem settle_inputImage (s u : State) : (settle s u).inputImage = u.inputImage := rfl

/-! ### arrive -/

@[simp] theorem arrive_pending (ch : ChannelNo) (req : Request) (s : State) :
    (arrive ch req s).pending = s.pending := rfl
@[simp] theorem arrive_phase (ch : ChannelNo) (req : Request) (s : State) :
    (arrive ch req s).phase = s.phase := rfl
@[simp] theorem arrive_resetLine (ch : ChannelNo) (req : Request) (s : State) :
    (arrive ch req s).resetLine = s.resetLine := rfl
@[simp] theorem arrive_startCause (ch : ChannelNo) (req : Request) (s : State) :
    (arrive ch req s).startCause = s.startCause := rfl
@[simp] theorem arrive_startFaults (ch : ChannelNo) (req : Request) (s : State) :
    (arrive ch req s).startFaults = s.startFaults := rfl
@[simp] theorem arrive_slots (ch : ChannelNo) (req : Request) (s : State) :
    (arrive ch req s).slots = s.slots := rfl
@[simp] theorem arrive_freed (ch : ChannelNo) (req : Request) (s : State) :
    (arrive ch req s).freed = s.freed := rfl
@[simp] theorem arrive_digests (ch : ChannelNo) (req : Request) (s : State) :
    (arrive ch req s).digests = s.digests := rfl
@[simp] theorem arrive_proposals (ch : ChannelNo) (req : Request) (s : State) :
    (arrive ch req s).proposals = s.proposals := rfl
@[simp] theorem arrive_lastNumber (ch : ChannelNo) (req : Request) (s : State) :
    (arrive ch req s).lastNumber = s.lastNumber := rfl
@[simp] theorem arrive_nextStamp (ch : ChannelNo) (req : Request) (s : State) :
    (arrive ch req s).nextStamp = s.nextStamp := rfl
@[simp] theorem arrive_channels (ch : ChannelNo) (req : Request) (s : State) :
    (arrive ch req s).channels = upd s.channels ch { sel s.channels ch with handshake := .working true req, armed := false, answer := .zero } := rfl
@[simp] theorem arrive_array (ch : ChannelNo) (req : Request) (s : State) :
    (arrive ch req s).array = s.array := rfl
@[simp] theorem arrive_queue (ch : ChannelNo) (req : Request) (s : State) :
    (arrive ch req s).queue = s.queue := rfl
@[simp] theorem arrive_writer (ch : ChannelNo) (req : Request) (s : State) :
    (arrive ch req s).writer = s.writer := rfl
@[simp] theorem arrive_degraded (ch : ChannelNo) (req : Request) (s : State) :
    (arrive ch req s).degraded = s.degraded := rfl
@[simp] theorem arrive_stations (ch : ChannelNo) (req : Request) (s : State) :
    (arrive ch req s).stations = s.stations := rfl
@[simp] theorem arrive_sections (ch : ChannelNo) (req : Request) (s : State) :
    (arrive ch req s).sections = s.sections := rfl
@[simp] theorem arrive_outputs (ch : ChannelNo) (req : Request) (s : State) :
    (arrive ch req s).outputs = s.outputs := rfl
@[simp] theorem arrive_fieldPresent (ch : ChannelNo) (req : Request) (s : State) :
    (arrive ch req s).fieldPresent = s.fieldPresent := rfl
@[simp] theorem arrive_release (ch : ChannelNo) (req : Request) (s : State) :
    (arrive ch req s).release = s.release := rfl
@[simp] theorem arrive_access (ch : ChannelNo) (req : Request) (s : State) :
    (arrive ch req s).access = s.access := rfl
@[simp] theorem arrive_link (ch : ChannelNo) (req : Request) (s : State) :
    (arrive ch req s).link = s.link := rfl
@[simp] theorem arrive_linkTimer (ch : ChannelNo) (req : Request) (s : State) :
    (arrive ch req s).linkTimer = s.linkTimer := rfl
@[simp] theorem arrive_inputImage (ch : ChannelNo) (req : Request) (s : State) :
    (arrive ch req s).inputImage = s.inputImage := rfl

/-! ### deliver -/

@[simp] theorem deliver_pending (ch : ChannelNo) (code : AnswerCode) (l : List Byte) (s : State) :
    (deliver ch code l s).pending = s.pending := rfl
@[simp] theorem deliver_phase (ch : ChannelNo) (code : AnswerCode) (l : List Byte) (s : State) :
    (deliver ch code l s).phase = s.phase := rfl
@[simp] theorem deliver_resetLine (ch : ChannelNo) (code : AnswerCode) (l : List Byte) (s : State) :
    (deliver ch code l s).resetLine = s.resetLine := rfl
@[simp] theorem deliver_startCause (ch : ChannelNo) (code : AnswerCode) (l : List Byte) (s : State) :
    (deliver ch code l s).startCause = s.startCause := rfl
@[simp] theorem deliver_startFaults (ch : ChannelNo) (code : AnswerCode) (l : List Byte) (s : State) :
    (deliver ch code l s).startFaults = s.startFaults := rfl
@[simp] theorem deliver_slots (ch : ChannelNo) (code : AnswerCode) (l : List Byte) (s : State) :
    (deliver ch code l s).slots = s.slots := rfl
@[simp] theorem deliver_freed (ch : ChannelNo) (code : AnswerCode) (l : List Byte) (s : State) :
    (deliver ch code l s).freed = s.freed := rfl
@[simp] theorem deliver_digests (ch : ChannelNo) (code : AnswerCode) (l : List Byte) (s : State) :
    (deliver ch code l s).digests = s.digests := rfl
@[simp] theorem deliver_proposals (ch : ChannelNo) (code : AnswerCode) (l : List Byte) (s : State) :
    (deliver ch code l s).proposals = s.proposals := rfl
@[simp] theorem deliver_lastNumber (ch : ChannelNo) (code : AnswerCode) (l : List Byte) (s : State) :
    (deliver ch code l s).lastNumber = s.lastNumber := rfl
@[simp] theorem deliver_nextStamp (ch : ChannelNo) (code : AnswerCode) (l : List Byte) (s : State) :
    (deliver ch code l s).nextStamp = s.nextStamp := rfl
@[simp] theorem deliver_channels (ch : ChannelNo) (code : AnswerCode) (l : List Byte) (s : State) :
    (deliver ch code l s).channels = upd s.channels ch ((sel s.channels ch).complete (.of code l)) := rfl
@[simp] theorem deliver_array (ch : ChannelNo) (code : AnswerCode) (l : List Byte) (s : State) :
    (deliver ch code l s).array = s.array := rfl
@[simp] theorem deliver_queue (ch : ChannelNo) (code : AnswerCode) (l : List Byte) (s : State) :
    (deliver ch code l s).queue = s.queue := rfl
@[simp] theorem deliver_writer (ch : ChannelNo) (code : AnswerCode) (l : List Byte) (s : State) :
    (deliver ch code l s).writer = s.writer := rfl
@[simp] theorem deliver_degraded (ch : ChannelNo) (code : AnswerCode) (l : List Byte) (s : State) :
    (deliver ch code l s).degraded = s.degraded := rfl
@[simp] theorem deliver_stations (ch : ChannelNo) (code : AnswerCode) (l : List Byte) (s : State) :
    (deliver ch code l s).stations = s.stations := rfl
@[simp] theorem deliver_sections (ch : ChannelNo) (code : AnswerCode) (l : List Byte) (s : State) :
    (deliver ch code l s).sections = s.sections := rfl
@[simp] theorem deliver_outputs (ch : ChannelNo) (code : AnswerCode) (l : List Byte) (s : State) :
    (deliver ch code l s).outputs = s.outputs := rfl
@[simp] theorem deliver_fieldPresent (ch : ChannelNo) (code : AnswerCode) (l : List Byte) (s : State) :
    (deliver ch code l s).fieldPresent = s.fieldPresent := rfl
@[simp] theorem deliver_release (ch : ChannelNo) (code : AnswerCode) (l : List Byte) (s : State) :
    (deliver ch code l s).release = s.release := rfl
@[simp] theorem deliver_access (ch : ChannelNo) (code : AnswerCode) (l : List Byte) (s : State) :
    (deliver ch code l s).access = s.access := rfl
@[simp] theorem deliver_link (ch : ChannelNo) (code : AnswerCode) (l : List Byte) (s : State) :
    (deliver ch code l s).link = s.link := rfl
@[simp] theorem deliver_linkTimer (ch : ChannelNo) (code : AnswerCode) (l : List Byte) (s : State) :
    (deliver ch code l s).linkTimer = s.linkTimer := rfl
@[simp] theorem deliver_inputImage (ch : ChannelNo) (code : AnswerCode) (l : List Byte) (s : State) :
    (deliver ch code l s).inputImage = s.inputImage := rfl

/-! ### removeProposal -/

@[simp] theorem removeProposal_pending (n : Nat) (s : State) : (removeProposal n s).pending = s.pending := rfl
@[simp] theorem removeProposal_phase (n : Nat) (s : State) : (removeProposal n s).phase = s.phase := rfl
@[simp] theorem removeProposal_resetLine (n : Nat) (s : State) :
    (removeProposal n s).resetLine = s.resetLine := rfl
@[simp] theorem removeProposal_startCause (n : Nat) (s : State) :
    (removeProposal n s).startCause = s.startCause := rfl
@[simp] theorem removeProposal_startFaults (n : Nat) (s : State) :
    (removeProposal n s).startFaults = s.startFaults := rfl
@[simp] theorem removeProposal_slots (n : Nat) (s : State) : (removeProposal n s).slots = s.slots := rfl
@[simp] theorem removeProposal_freed (n : Nat) (s : State) : (removeProposal n s).freed = s.freed := rfl
@[simp] theorem removeProposal_digests (n : Nat) (s : State) : (removeProposal n s).digests = s.digests := rfl
@[simp] theorem removeProposal_proposals (n : Nat) (s : State) :
    (removeProposal n s).proposals = s.proposals.filter fun p => p.number != n := rfl
@[simp] theorem removeProposal_lastNumber (n : Nat) (s : State) :
    (removeProposal n s).lastNumber = s.lastNumber := rfl
@[simp] theorem removeProposal_nextStamp (n : Nat) (s : State) :
    (removeProposal n s).nextStamp = s.nextStamp := rfl
@[simp] theorem removeProposal_channels (n : Nat) (s : State) :
    (removeProposal n s).channels = s.channels := rfl
@[simp] theorem removeProposal_array (n : Nat) (s : State) : (removeProposal n s).array = s.array := rfl
@[simp] theorem removeProposal_queue (n : Nat) (s : State) : (removeProposal n s).queue = s.queue := rfl
@[simp] theorem removeProposal_writer (n : Nat) (s : State) : (removeProposal n s).writer = s.writer := rfl
@[simp] theorem removeProposal_degraded (n : Nat) (s : State) :
    (removeProposal n s).degraded = s.degraded := rfl
@[simp] theorem removeProposal_stations (n : Nat) (s : State) :
    (removeProposal n s).stations = s.stations := rfl
@[simp] theorem removeProposal_sections (n : Nat) (s : State) :
    (removeProposal n s).sections = s.sections := rfl
@[simp] theorem removeProposal_outputs (n : Nat) (s : State) : (removeProposal n s).outputs = s.outputs := rfl
@[simp] theorem removeProposal_fieldPresent (n : Nat) (s : State) :
    (removeProposal n s).fieldPresent = s.fieldPresent := rfl
@[simp] theorem removeProposal_release (n : Nat) (s : State) : (removeProposal n s).release = s.release := rfl
@[simp] theorem removeProposal_access (n : Nat) (s : State) : (removeProposal n s).access = s.access := rfl
@[simp] theorem removeProposal_link (n : Nat) (s : State) : (removeProposal n s).link = s.link := rfl
@[simp] theorem removeProposal_linkTimer (n : Nat) (s : State) :
    (removeProposal n s).linkTimer = s.linkTimer := rfl
@[simp] theorem removeProposal_inputImage (n : Nat) (s : State) :
    (removeProposal n s).inputImage = s.inputImage := rfl

/-! ### markWriting -/

@[simp] theorem markWriting_pending (n : Nat) (ch : ChannelNo) (s : State) :
    (markWriting n ch s).pending = s.pending := rfl
@[simp] theorem markWriting_phase (n : Nat) (ch : ChannelNo) (s : State) :
    (markWriting n ch s).phase = s.phase := rfl
@[simp] theorem markWriting_resetLine (n : Nat) (ch : ChannelNo) (s : State) :
    (markWriting n ch s).resetLine = s.resetLine := rfl
@[simp] theorem markWriting_startCause (n : Nat) (ch : ChannelNo) (s : State) :
    (markWriting n ch s).startCause = s.startCause := rfl
@[simp] theorem markWriting_startFaults (n : Nat) (ch : ChannelNo) (s : State) :
    (markWriting n ch s).startFaults = s.startFaults := rfl
@[simp] theorem markWriting_slots (n : Nat) (ch : ChannelNo) (s : State) :
    (markWriting n ch s).slots = s.slots := rfl
@[simp] theorem markWriting_freed (n : Nat) (ch : ChannelNo) (s : State) :
    (markWriting n ch s).freed = s.freed := rfl
@[simp] theorem markWriting_digests (n : Nat) (ch : ChannelNo) (s : State) :
    (markWriting n ch s).digests = s.digests := rfl
@[simp] theorem markWriting_proposals (n : Nat) (ch : ChannelNo) (s : State) :
    (markWriting n ch s).proposals = s.proposals.map fun p => if p.number = n then { p with state := .writing ch } else p := rfl
@[simp] theorem markWriting_lastNumber (n : Nat) (ch : ChannelNo) (s : State) :
    (markWriting n ch s).lastNumber = s.lastNumber := rfl
@[simp] theorem markWriting_nextStamp (n : Nat) (ch : ChannelNo) (s : State) :
    (markWriting n ch s).nextStamp = s.nextStamp := rfl
@[simp] theorem markWriting_channels (n : Nat) (ch : ChannelNo) (s : State) :
    (markWriting n ch s).channels = s.channels := rfl
@[simp] theorem markWriting_array (n : Nat) (ch : ChannelNo) (s : State) :
    (markWriting n ch s).array = s.array := rfl
@[simp] theorem markWriting_queue (n : Nat) (ch : ChannelNo) (s : State) :
    (markWriting n ch s).queue = s.queue := rfl
@[simp] theorem markWriting_writer (n : Nat) (ch : ChannelNo) (s : State) :
    (markWriting n ch s).writer = s.writer := rfl
@[simp] theorem markWriting_degraded (n : Nat) (ch : ChannelNo) (s : State) :
    (markWriting n ch s).degraded = s.degraded := rfl
@[simp] theorem markWriting_stations (n : Nat) (ch : ChannelNo) (s : State) :
    (markWriting n ch s).stations = s.stations := rfl
@[simp] theorem markWriting_sections (n : Nat) (ch : ChannelNo) (s : State) :
    (markWriting n ch s).sections = s.sections := rfl
@[simp] theorem markWriting_outputs (n : Nat) (ch : ChannelNo) (s : State) :
    (markWriting n ch s).outputs = s.outputs := rfl
@[simp] theorem markWriting_fieldPresent (n : Nat) (ch : ChannelNo) (s : State) :
    (markWriting n ch s).fieldPresent = s.fieldPresent := rfl
@[simp] theorem markWriting_release (n : Nat) (ch : ChannelNo) (s : State) :
    (markWriting n ch s).release = s.release := rfl
@[simp] theorem markWriting_access (n : Nat) (ch : ChannelNo) (s : State) :
    (markWriting n ch s).access = s.access := rfl
@[simp] theorem markWriting_link (n : Nat) (ch : ChannelNo) (s : State) :
    (markWriting n ch s).link = s.link := rfl
@[simp] theorem markWriting_linkTimer (n : Nat) (ch : ChannelNo) (s : State) :
    (markWriting n ch s).linkTimer = s.linkTimer := rfl
@[simp] theorem markWriting_inputImage (n : Nat) (ch : ChannelNo) (s : State) :
    (markWriting n ch s).inputImage = s.inputImage := rfl

/-! ### clearPending -/

@[simp] theorem clearPending_pending (sec : SectionNo) (s : State) :
    (clearPending sec s).pending = s.pending := by simp only [clearPending]
@[simp] theorem clearPending_phase (sec : SectionNo) (s : State) : (clearPending sec s).phase = s.phase := by simp only [clearPending]
@[simp] theorem clearPending_resetLine (sec : SectionNo) (s : State) :
    (clearPending sec s).resetLine = s.resetLine := by simp only [clearPending]
@[simp] theorem clearPending_startCause (sec : SectionNo) (s : State) :
    (clearPending sec s).startCause = s.startCause := by simp only [clearPending]
@[simp] theorem clearPending_startFaults (sec : SectionNo) (s : State) :
    (clearPending sec s).startFaults = s.startFaults := by simp only [clearPending]
@[simp] theorem clearPending_slots (sec : SectionNo) (s : State) : (clearPending sec s).slots = s.slots := by simp only [clearPending]
@[simp] theorem clearPending_freed (sec : SectionNo) (s : State) : (clearPending sec s).freed = s.freed := by simp only [clearPending]
@[simp] theorem clearPending_digests (sec : SectionNo) (s : State) :
    (clearPending sec s).digests = s.digests := by simp only [clearPending]
@[simp] theorem clearPending_proposals (sec : SectionNo) (s : State) :
    (clearPending sec s).proposals = s.proposals := by simp only [clearPending]
@[simp] theorem clearPending_lastNumber (sec : SectionNo) (s : State) :
    (clearPending sec s).lastNumber = s.lastNumber := by simp only [clearPending]
@[simp] theorem clearPending_nextStamp (sec : SectionNo) (s : State) :
    (clearPending sec s).nextStamp = s.nextStamp := by simp only [clearPending]
@[simp] theorem clearPending_channels (sec : SectionNo) (s : State) :
    (clearPending sec s).channels = s.channels := by simp only [clearPending]
@[simp] theorem clearPending_array (sec : SectionNo) (s : State) : (clearPending sec s).array = s.array := by simp only [clearPending]
@[simp] theorem clearPending_queue (sec : SectionNo) (s : State) : (clearPending sec s).queue = s.queue := by simp only [clearPending]
@[simp] theorem clearPending_writer (sec : SectionNo) (s : State) :
    (clearPending sec s).writer = s.writer := by simp only [clearPending]
@[simp] theorem clearPending_degraded (sec : SectionNo) (s : State) :
    (clearPending sec s).degraded = s.degraded := by simp only [clearPending]
@[simp] theorem clearPending_stations (sec : SectionNo) (s : State) :
    (clearPending sec s).stations = each s.stations fun _ r => if r.persist.enrolled && r.persist.sect == sec then { r with pending := false } else r := by simp only [clearPending]
@[simp] theorem clearPending_sections (sec : SectionNo) (s : State) :
    (clearPending sec s).sections = s.sections := by simp only [clearPending]
@[simp] theorem clearPending_outputs (sec : SectionNo) (s : State) :
    (clearPending sec s).outputs = s.outputs := by simp only [clearPending]
@[simp] theorem clearPending_fieldPresent (sec : SectionNo) (s : State) :
    (clearPending sec s).fieldPresent = s.fieldPresent := by simp only [clearPending]
@[simp] theorem clearPending_release (sec : SectionNo) (s : State) :
    (clearPending sec s).release = s.release := by simp only [clearPending]
@[simp] theorem clearPending_access (sec : SectionNo) (s : State) :
    (clearPending sec s).access = s.access := by simp only [clearPending]
@[simp] theorem clearPending_link (sec : SectionNo) (s : State) : (clearPending sec s).link = s.link := by simp only [clearPending]
@[simp] theorem clearPending_linkTimer (sec : SectionNo) (s : State) :
    (clearPending sec s).linkTimer = s.linkTimer := by simp only [clearPending]
@[simp] theorem clearPending_inputImage (sec : SectionNo) (s : State) :
    (clearPending sec s).inputImage = s.inputImage := by simp only [clearPending]

/-! ### markPending -/

@[simp] theorem markPending_pending (sec : SectionNo) (f : FormatNo) (s : State) :
    (markPending sec f s).pending = s.pending := by simp only [markPending]
@[simp] theorem markPending_phase (sec : SectionNo) (f : FormatNo) (s : State) :
    (markPending sec f s).phase = s.phase := by simp only [markPending]
@[simp] theorem markPending_resetLine (sec : SectionNo) (f : FormatNo) (s : State) :
    (markPending sec f s).resetLine = s.resetLine := by simp only [markPending]
@[simp] theorem markPending_startCause (sec : SectionNo) (f : FormatNo) (s : State) :
    (markPending sec f s).startCause = s.startCause := by simp only [markPending]
@[simp] theorem markPending_startFaults (sec : SectionNo) (f : FormatNo) (s : State) :
    (markPending sec f s).startFaults = s.startFaults := by simp only [markPending]
@[simp] theorem markPending_slots (sec : SectionNo) (f : FormatNo) (s : State) :
    (markPending sec f s).slots = s.slots := by simp only [markPending]
@[simp] theorem markPending_freed (sec : SectionNo) (f : FormatNo) (s : State) :
    (markPending sec f s).freed = s.freed := by simp only [markPending]
@[simp] theorem markPending_digests (sec : SectionNo) (f : FormatNo) (s : State) :
    (markPending sec f s).digests = s.digests := by simp only [markPending]
@[simp] theorem markPending_proposals (sec : SectionNo) (f : FormatNo) (s : State) :
    (markPending sec f s).proposals = s.proposals := by simp only [markPending]
@[simp] theorem markPending_lastNumber (sec : SectionNo) (f : FormatNo) (s : State) :
    (markPending sec f s).lastNumber = s.lastNumber := by simp only [markPending]
@[simp] theorem markPending_nextStamp (sec : SectionNo) (f : FormatNo) (s : State) :
    (markPending sec f s).nextStamp = s.nextStamp := by simp only [markPending]
@[simp] theorem markPending_channels (sec : SectionNo) (f : FormatNo) (s : State) :
    (markPending sec f s).channels = s.channels := by simp only [markPending]
@[simp] theorem markPending_array (sec : SectionNo) (f : FormatNo) (s : State) :
    (markPending sec f s).array = s.array := by simp only [markPending]
@[simp] theorem markPending_queue (sec : SectionNo) (f : FormatNo) (s : State) :
    (markPending sec f s).queue = s.queue := by simp only [markPending]
@[simp] theorem markPending_writer (sec : SectionNo) (f : FormatNo) (s : State) :
    (markPending sec f s).writer = s.writer := by simp only [markPending]
@[simp] theorem markPending_degraded (sec : SectionNo) (f : FormatNo) (s : State) :
    (markPending sec f s).degraded = s.degraded := by simp only [markPending]
@[simp] theorem markPending_stations (sec : SectionNo) (f : FormatNo) (s : State) :
    (markPending sec f s).stations = each s.stations fun _ r => if r.persist.enrolled && r.persist.sect == sec && r.persist.format != f then { r with pending := true } else r := by simp only [markPending]
@[simp] theorem markPending_sections (sec : SectionNo) (f : FormatNo) (s : State) :
    (markPending sec f s).sections = s.sections := by simp only [markPending]
@[simp] theorem markPending_outputs (sec : SectionNo) (f : FormatNo) (s : State) :
    (markPending sec f s).outputs = s.outputs := by simp only [markPending]
@[simp] theorem markPending_fieldPresent (sec : SectionNo) (f : FormatNo) (s : State) :
    (markPending sec f s).fieldPresent = s.fieldPresent := by simp only [markPending]
@[simp] theorem markPending_release (sec : SectionNo) (f : FormatNo) (s : State) :
    (markPending sec f s).release = s.release := by simp only [markPending]
@[simp] theorem markPending_access (sec : SectionNo) (f : FormatNo) (s : State) :
    (markPending sec f s).access = s.access := by simp only [markPending]
@[simp] theorem markPending_link (sec : SectionNo) (f : FormatNo) (s : State) :
    (markPending sec f s).link = s.link := by simp only [markPending]
@[simp] theorem markPending_linkTimer (sec : SectionNo) (f : FormatNo) (s : State) :
    (markPending sec f s).linkTimer = s.linkTimer := by simp only [markPending]
@[simp] theorem markPending_inputImage (sec : SectionNo) (f : FormatNo) (s : State) :
    (markPending sec f s).inputImage = s.inputImage := by simp only [markPending]

/-! ### takeItem and enqueue: every field but the queue and the writer -/

@[simp] theorem takeItem_pending (s : State) : (takeItem s).pending = s.pending := by
  unfold takeItem; split <;> [rfl; (split <;> rfl)]
@[simp] theorem takeItem_phase (s : State) : (takeItem s).phase = s.phase := by
  unfold takeItem; split <;> [rfl; (split <;> rfl)]
@[simp] theorem takeItem_resetLine (s : State) : (takeItem s).resetLine = s.resetLine := by
  unfold takeItem; split <;> [rfl; (split <;> rfl)]
@[simp] theorem takeItem_startCause (s : State) : (takeItem s).startCause = s.startCause := by
  unfold takeItem; split <;> [rfl; (split <;> rfl)]
@[simp] theorem takeItem_startFaults (s : State) : (takeItem s).startFaults = s.startFaults := by
  unfold takeItem; split <;> [rfl; (split <;> rfl)]
@[simp] theorem takeItem_slots (s : State) : (takeItem s).slots = s.slots := by
  unfold takeItem; split <;> [rfl; (split <;> rfl)]
@[simp] theorem takeItem_freed (s : State) : (takeItem s).freed = s.freed := by
  unfold takeItem; split <;> [rfl; (split <;> rfl)]
@[simp] theorem takeItem_digests (s : State) : (takeItem s).digests = s.digests := by
  unfold takeItem; split <;> [rfl; (split <;> rfl)]
@[simp] theorem takeItem_proposals (s : State) : (takeItem s).proposals = s.proposals := by
  unfold takeItem; split <;> [rfl; (split <;> rfl)]
@[simp] theorem takeItem_lastNumber (s : State) : (takeItem s).lastNumber = s.lastNumber := by
  unfold takeItem; split <;> [rfl; (split <;> rfl)]
@[simp] theorem takeItem_nextStamp (s : State) : (takeItem s).nextStamp = s.nextStamp := by
  unfold takeItem; split <;> [rfl; (split <;> rfl)]
@[simp] theorem takeItem_channels (s : State) : (takeItem s).channels = s.channels := by
  unfold takeItem; split <;> [rfl; (split <;> rfl)]
@[simp] theorem takeItem_array (s : State) : (takeItem s).array = s.array := by
  unfold takeItem; split <;> [rfl; (split <;> rfl)]
@[simp] theorem takeItem_degraded (s : State) : (takeItem s).degraded = s.degraded := by
  unfold takeItem; split <;> [rfl; (split <;> rfl)]
@[simp] theorem takeItem_stations (s : State) : (takeItem s).stations = s.stations := by
  unfold takeItem; split <;> [rfl; (split <;> rfl)]
@[simp] theorem takeItem_sections (s : State) : (takeItem s).sections = s.sections := by
  unfold takeItem; split <;> [rfl; (split <;> rfl)]
@[simp] theorem takeItem_outputs (s : State) : (takeItem s).outputs = s.outputs := by
  unfold takeItem; split <;> [rfl; (split <;> rfl)]
@[simp] theorem takeItem_fieldPresent (s : State) : (takeItem s).fieldPresent = s.fieldPresent := by
  unfold takeItem; split <;> [rfl; (split <;> rfl)]
@[simp] theorem takeItem_release (s : State) : (takeItem s).release = s.release := by
  unfold takeItem; split <;> [rfl; (split <;> rfl)]
@[simp] theorem takeItem_access (s : State) : (takeItem s).access = s.access := by
  unfold takeItem; split <;> [rfl; (split <;> rfl)]
@[simp] theorem takeItem_link (s : State) : (takeItem s).link = s.link := by
  unfold takeItem; split <;> [rfl; (split <;> rfl)]
@[simp] theorem takeItem_linkTimer (s : State) : (takeItem s).linkTimer = s.linkTimer := by
  unfold takeItem; split <;> [rfl; (split <;> rfl)]
@[simp] theorem takeItem_inputImage (s : State) : (takeItem s).inputImage = s.inputImage := by
  unfold takeItem; split <;> [rfl; (split <;> rfl)]
@[simp] theorem enqueue_pending (i : WriteItem) (s : State) : (enqueue i s).pending = s.pending := by
  unfold enqueue; split <;> [rfl; simp]
@[simp] theorem enqueue_phase (i : WriteItem) (s : State) : (enqueue i s).phase = s.phase := by
  unfold enqueue; split <;> [rfl; simp]
@[simp] theorem enqueue_resetLine (i : WriteItem) (s : State) : (enqueue i s).resetLine = s.resetLine := by
  unfold enqueue; split <;> [rfl; simp]
@[simp] theorem enqueue_startCause (i : WriteItem) (s : State) : (enqueue i s).startCause = s.startCause := by
  unfold enqueue; split <;> [rfl; simp]
@[simp] theorem enqueue_startFaults (i : WriteItem) (s : State) : (enqueue i s).startFaults = s.startFaults := by
  unfold enqueue; split <;> [rfl; simp]
@[simp] theorem enqueue_slots (i : WriteItem) (s : State) : (enqueue i s).slots = s.slots := by
  unfold enqueue; split <;> [rfl; simp]
@[simp] theorem enqueue_freed (i : WriteItem) (s : State) : (enqueue i s).freed = s.freed := by
  unfold enqueue; split <;> [rfl; simp]
@[simp] theorem enqueue_digests (i : WriteItem) (s : State) : (enqueue i s).digests = s.digests := by
  unfold enqueue; split <;> [rfl; simp]
@[simp] theorem enqueue_proposals (i : WriteItem) (s : State) : (enqueue i s).proposals = s.proposals := by
  unfold enqueue; split <;> [rfl; simp]
@[simp] theorem enqueue_lastNumber (i : WriteItem) (s : State) : (enqueue i s).lastNumber = s.lastNumber := by
  unfold enqueue; split <;> [rfl; simp]
@[simp] theorem enqueue_nextStamp (i : WriteItem) (s : State) : (enqueue i s).nextStamp = s.nextStamp := by
  unfold enqueue; split <;> [rfl; simp]
@[simp] theorem enqueue_channels (i : WriteItem) (s : State) : (enqueue i s).channels = s.channels := by
  unfold enqueue; split <;> [rfl; simp]
@[simp] theorem enqueue_array (i : WriteItem) (s : State) : (enqueue i s).array = s.array := by
  unfold enqueue; split <;> [rfl; simp]
@[simp] theorem enqueue_degraded (i : WriteItem) (s : State) : (enqueue i s).degraded = s.degraded := by
  unfold enqueue; split <;> [rfl; simp]
@[simp] theorem enqueue_stations (i : WriteItem) (s : State) : (enqueue i s).stations = s.stations := by
  unfold enqueue; split <;> [rfl; simp]
@[simp] theorem enqueue_sections (i : WriteItem) (s : State) : (enqueue i s).sections = s.sections := by
  unfold enqueue; split <;> [rfl; simp]
@[simp] theorem enqueue_outputs (i : WriteItem) (s : State) : (enqueue i s).outputs = s.outputs := by
  unfold enqueue; split <;> [rfl; simp]
@[simp] theorem enqueue_fieldPresent (i : WriteItem) (s : State) : (enqueue i s).fieldPresent = s.fieldPresent := by
  unfold enqueue; split <;> [rfl; simp]
@[simp] theorem enqueue_release (i : WriteItem) (s : State) : (enqueue i s).release = s.release := by
  unfold enqueue; split <;> [rfl; simp]
@[simp] theorem enqueue_access (i : WriteItem) (s : State) : (enqueue i s).access = s.access := by
  unfold enqueue; split <;> [rfl; simp]
@[simp] theorem enqueue_link (i : WriteItem) (s : State) : (enqueue i s).link = s.link := by
  unfold enqueue; split <;> [rfl; simp]
@[simp] theorem enqueue_linkTimer (i : WriteItem) (s : State) : (enqueue i s).linkTimer = s.linkTimer := by
  unfold enqueue; split <;> [rfl; simp]
@[simp] theorem enqueue_inputImage (i : WriteItem) (s : State) : (enqueue i s).inputImage = s.inputImage := by
  unfold enqueue; split <;> [rfl; simp]

/-! ### recompute: every field but the sections, the queue and the writer -/

/-- What a write of a section record and a request for a write of one leave alone, a recompute leaves alone. -/
theorem recompute_frame {α : Type} (g : State → α) (h1 : ∀ t sec r, g (State.setSectionRec t sec r) = g t)
    (h2 : ∀ t i, g (enqueue i t) = g t) (sec : SectionNo) (s : State) : g (recompute sec s) = g s := by
  have hs : ∀ f, g (steadyOn sec f s) = g s := by
    intro f
    unfold steadyOn
    dsimp only
    split
    · exact h1 _ _ _
    · exact (h2 _ _).trans (h1 _ _ _)
  unfold recompute
  split
  · rfl
  · split
    · exact hs _
    · split
      · exact hs _
      · exact h1 _ _ _

@[simp] theorem recompute_pending (sec : SectionNo) (s : State) : (recompute sec s).pending = s.pending :=
  recompute_frame State.pending (by simp) (by simp) sec s
@[simp] theorem recompute_phase (sec : SectionNo) (s : State) : (recompute sec s).phase = s.phase :=
  recompute_frame State.phase (by simp) (by simp) sec s
@[simp] theorem recompute_resetLine (sec : SectionNo) (s : State) : (recompute sec s).resetLine = s.resetLine :=
  recompute_frame State.resetLine (by simp) (by simp) sec s
@[simp] theorem recompute_startCause (sec : SectionNo) (s : State) : (recompute sec s).startCause = s.startCause :=
  recompute_frame State.startCause (by simp) (by simp) sec s
@[simp] theorem recompute_startFaults (sec : SectionNo) (s : State) : (recompute sec s).startFaults = s.startFaults :=
  recompute_frame State.startFaults (by simp) (by simp) sec s
@[simp] theorem recompute_slots (sec : SectionNo) (s : State) : (recompute sec s).slots = s.slots :=
  recompute_frame State.slots (by simp) (by simp) sec s
@[simp] theorem recompute_freed (sec : SectionNo) (s : State) : (recompute sec s).freed = s.freed :=
  recompute_frame State.freed (by simp) (by simp) sec s
@[simp] theorem recompute_digests (sec : SectionNo) (s : State) : (recompute sec s).digests = s.digests :=
  recompute_frame State.digests (by simp) (by simp) sec s
@[simp] theorem recompute_proposals (sec : SectionNo) (s : State) : (recompute sec s).proposals = s.proposals :=
  recompute_frame State.proposals (by simp) (by simp) sec s
@[simp] theorem recompute_lastNumber (sec : SectionNo) (s : State) : (recompute sec s).lastNumber = s.lastNumber :=
  recompute_frame State.lastNumber (by simp) (by simp) sec s
@[simp] theorem recompute_nextStamp (sec : SectionNo) (s : State) : (recompute sec s).nextStamp = s.nextStamp :=
  recompute_frame State.nextStamp (by simp) (by simp) sec s
@[simp] theorem recompute_channels (sec : SectionNo) (s : State) : (recompute sec s).channels = s.channels :=
  recompute_frame State.channels (by simp) (by simp) sec s
@[simp] theorem recompute_array (sec : SectionNo) (s : State) : (recompute sec s).array = s.array :=
  recompute_frame State.array (by simp) (by simp) sec s
@[simp] theorem recompute_degraded (sec : SectionNo) (s : State) : (recompute sec s).degraded = s.degraded :=
  recompute_frame State.degraded (by simp) (by simp) sec s
@[simp] theorem recompute_stations (sec : SectionNo) (s : State) : (recompute sec s).stations = s.stations :=
  recompute_frame State.stations (by simp) (by simp) sec s
@[simp] theorem recompute_outputs (sec : SectionNo) (s : State) : (recompute sec s).outputs = s.outputs :=
  recompute_frame State.outputs (by simp) (by simp) sec s
@[simp] theorem recompute_fieldPresent (sec : SectionNo) (s : State) : (recompute sec s).fieldPresent = s.fieldPresent :=
  recompute_frame State.fieldPresent (by simp) (by simp) sec s
@[simp] theorem recompute_release (sec : SectionNo) (s : State) : (recompute sec s).release = s.release :=
  recompute_frame State.release (by simp) (by simp) sec s
@[simp] theorem recompute_access (sec : SectionNo) (s : State) : (recompute sec s).access = s.access :=
  recompute_frame State.access (by simp) (by simp) sec s
@[simp] theorem recompute_link (sec : SectionNo) (s : State) : (recompute sec s).link = s.link :=
  recompute_frame State.link (by simp) (by simp) sec s
@[simp] theorem recompute_linkTimer (sec : SectionNo) (s : State) : (recompute sec s).linkTimer = s.linkTimer :=
  recompute_frame State.linkTimer (by simp) (by simp) sec s
@[simp] theorem recompute_inputImage (sec : SectionNo) (s : State) : (recompute sec s).inputImage = s.inputImage :=
  recompute_frame State.inputImage (by simp) (by simp) sec s

end Sys2Proof.Machine
end

