-- ==== Sys2Proof/Laws/Settle.lean ====
section
/-! SUPPORT. How an event ends: when outputs are formed and flags set, and when nothing is. -/

namespace Sys2Proof.Machine

/-! ### Setting flags -/

@[simp] theorem join_empty (a : EventSet) : a.join .empty = a := by
  cases a; simp [EventSet.join, EventSet.empty]

theorem join_assoc (a b c : EventSet) : (a.join b).join c = a.join (b.join c) := by
  simp [EventSet.join, Bool.or_assoc]

@[simp] theorem flag_empty (c : Channel) : c.flag .empty = c := by
  simp only [Channel.flag, join_empty]; split <;> rfl

@[simp] theorem raise_empty (s : State) : s.raise .empty = s := by
  have h : each s.channels (fun _ c => c.flag .empty) = s.channels := each_id _ _ fun i => by simp
  simp only [State.raise, h]

/-- A channel whose reset is held is not reached by any flag. -/
theorem flag_held {c : Channel} (e : EventSet) (h : c.resetHeld = true) : c.flag e = c := by
  simp [Channel.flag, h]

/-- On the other channels the flags join those that stand. -/
theorem flag_open {c : Channel} (e : EventSet) (h : c.resetHeld = false) :
    c.flag e = { c with flags := c.flags.join e } := by
  simp [Channel.flag, h]

/-! ### Commands to the outputs -/

@[simp] theorem command_same (o : Output) : o.command o.commanded = o := by simp [Output.command]

theorem command_commanded (o : Output) (c : Bool) : (o.command c).commanded = c := by
  simp only [Output.command]
  split
  · next h => exact h.symm
  · split
    · next h => simp [Output.reform, h]
    · next h => simp at h; simp [Output.reform, h]

@[simp] theorem command_mode (o : Output) (c : Bool) : (o.command c).mode = o.mode := by
  simp only [Output.command]; split <;> [rfl; (split <;> rfl)]

@[simp] theorem command_readback (o : Output) (c : Bool) : (o.command c).readback = o.readback := by
  simp only [Output.command]; split <;> [rfl; (split <;> rfl)]

/-- OUTPUT_FAULT stays as R150 forms it through every command. -/
theorem command_faultFormed (o : Output) (c : Bool) (h : o.fault = o.faultFormed) :
    (o.command c).fault = (o.command c).faultFormed := by
  simp only [Output.command]; split <;> [exact h; (split <;> rfl)]

/-! ### The formed commands -/

/-- What the commanded state is formed from: the phase, the sections, the stations, and the outputs' modes. -/
theorem commandFormed_congr {s t : State} (sec : SectionNo) (hp : t.phase = s.phase)
    (hs : (sel t.sections sec).state = (sel s.sections sec).state) (ht : t.stations = s.stations)
    (hm : (sel t.outputs sec).mode = (sel s.outputs sec).mode) :
    t.commandFormed sec = s.commandFormed sec := by
  simp only [State.commandFormed, State.autoCondition, State.ready, State.enrolledIn, hp, hs, ht, hm]

/-- An event that leaves every formed command leaves the outputs. -/
theorem formOutputs_quiet {s t : State} (h : ∀ sec, s.commandFormed sec = t.commandFormed sec) :
    formOutputs s t = t := by
  have h' : each t.outputs (fun sec o =>
      if s.commandFormed sec = t.commandFormed sec then o else o.command (t.commandFormed sec)) = t.outputs :=
    each_id _ _ fun i => by simp [h i]
  simp only [formOutputs, h']

/-- The outputs after an event, one at a time. -/
theorem formOutputs_sel (s t : State) (sec : SectionNo) :
    sel (formOutputs s t).outputs sec =
      if s.commandFormed sec = t.commandFormed sec then sel t.outputs sec
      else (sel t.outputs sec).command (t.commandFormed sec) := by
  simp [formOutputs]

/-! ### settle -/

/-- An event after which nothing of Table 51 differs sets no flag. -/
theorem causes_quiet {s t : State} (hp : t.proposals = s.proposals) (hst : t.stations = s.stations)
    (hse : t.sections = s.sections) (ho : t.outputs = s.outputs) (hr : t.release = s.release)
    (hd : t.degraded = s.degraded) : causes s t = .empty := by
  simp [causes, EventSet.empty, hp, hst, hse, ho, hr, hd]

/-- An event that changes nothing the outputs and the flags depend on settles as it is. -/
theorem settle_quiet {s t : State} (hph : t.phase = s.phase) (hp : t.proposals = s.proposals)
    (hst : t.stations = s.stations) (hse : t.sections = s.sections) (ho : t.outputs = s.outputs)
    (hr : t.release = s.release) (hd : t.degraded = s.degraded) : settle s t = t := by
  have h : formOutputs s t = t := formOutputs_quiet fun sec =>
    (commandFormed_congr sec hph (by rw [hse]) hst (by rw [ho])).symm
  rw [settle, h, causes_quiet hp hst hse ho hr hd, raise_empty]

@[simp] theorem settle_self (s : State) : settle s s = s := settle_quiet rfl rfl rfl rfl rfl rfl rfl

/-- A change of one channel settles as it is. -/
theorem settle_channel (s : State) (ch : ChannelNo) (f : Channel → Channel) :
    settle s (s.onChannel ch f) = s.onChannel ch f := settle_quiet rfl rfl rfl rfl rfl rfl rfl

/-- Flags set after a change of one channel, where the change leaves the flags and the held reset alone. -/
theorem raise_onChannel (s : State) (ch : ChannelNo) (f : Channel → Channel) (e : EventSet)
    (h : ∀ c, (f c).flag e = f (c.flag e)) : (s.onChannel ch f).raise e = (s.raise e).onChannel ch f := by
  simp only [State.raise, State.onChannel, State.setChannel, each_upd, sel_each, h]

/-- The causes of an event do not see a change of a channel. -/
theorem settle_onChannel (s t : State) (ch : ChannelNo) (f : Channel → Channel)
    (h : ∀ c e, (f c).flag e = f (c.flag e)) :
    settle (s.onChannel ch f) (t.onChannel ch f) = (settle s t).onChannel ch f := by
  have e : formOutputs (s.onChannel ch f) (t.onChannel ch f) = (formOutputs s t).onChannel ch f := rfl
  have c : causes (s.onChannel ch f) ((formOutputs s t).onChannel ch f) = causes s (formOutputs s t) := rfl
  rw [settle, e, c, raise_onChannel _ _ _ _ fun x => h x _]
  rfl

/-- An event that leaves every formed command only sets the flags of its causes. -/
theorem settle_formed {s t : State} (h : ∀ sec, s.commandFormed sec = t.commandFormed sec) :
    settle s t = t.raise (causes s t) := by
  rw [settle, formOutputs_quiet h]

/-- An event of the proposal list alone. -/
theorem settle_proposal_event {s t : State} (hph : t.phase = s.phase) (hst : t.stations = s.stations)
    (hse : t.sections = s.sections) (ho : t.outputs = s.outputs) (hr : t.release = s.release)
    (hd : t.degraded = s.degraded) :
    settle s t = t.raise
      ⟨decide (s.proposals.map Proposal.stamp ≠ t.proposals.map Proposal.stamp), false, false, false, false⟩ := by
  rw [settle_formed fun sec => (commandFormed_congr sec hph (by rw [hse]) hst (by rw [ho])).symm]
  congr 1
  simp [causes, hst, hse, ho, hr, hd]

/-- An event of the release alone. -/
theorem settle_release_event {s t : State} (hph : t.phase = s.phase) (hp : t.proposals = s.proposals)
    (hst : t.stations = s.stations) (hse : t.sections = s.sections) (ho : t.outputs = s.outputs)
    (hd : t.degraded = s.degraded) :
    settle s t = t.raise ⟨false, false, false, decide (s.release.isSome ≠ t.release.isSome), false⟩ := by
  rw [settle_formed fun sec => (commandFormed_congr sec hph (by rw [hse]) hst (by rw [ho])).symm]
  congr 1
  simp [causes, hp, hst, hse, ho, hd]

/-- An event of the store condition alone. -/
theorem settle_store_event {s t : State} (hph : t.phase = s.phase) (hp : t.proposals = s.proposals)
    (hst : t.stations = s.stations) (hse : t.sections = s.sections) (ho : t.outputs = s.outputs)
    (hr : t.release = s.release) :
    settle s t = t.raise ⟨false, false, false, false, !s.degraded && t.degraded⟩ := by
  rw [settle_formed fun sec => (commandFormed_congr sec hph (by rw [hse]) hst (by rw [ho])).symm]
  congr 1
  simp [causes, hp, hst, hse, ho, hr]

/-- Each output's commanded state after an event is the one its mode forms, where it was so before. -/
theorem settle_commanded {s t : State} (sec : SectionNo)
    (h : (sel s.outputs sec).commanded = s.commandFormed sec)
    (ho : (sel t.outputs sec).commanded = (sel s.outputs sec).commanded) :
    (sel (settle s t).outputs sec).commanded = t.commandFormed sec := by
  rw [settle_outputs, formOutputs_outputs, sel_each]
  split
  · next e => rw [ho, h, e]
  · exact command_commanded _ _

end Sys2Proof.Machine
end

