-- ==== Sys2Proof/Laws/Requests.lean ====
section
/-! SUPPORT. What a request does, by the outcome of the channel interface's checks: everything `takeRequest` can do. -/

namespace Sys2Proof.Machine

/-! ### The pieces of the handshake -/

theorem onChannel_onChannel (s : State) (ch : ChannelNo) (f g : Channel → Channel) :
    (s.onChannel ch f).onChannel ch g = s.onChannel ch fun c => g (f c) := by
  simp [State.onChannel, State.setChannel]

/-- An answer to a request that has just arrived is its completion. -/
theorem deliver_arrive (ch : ChannelNo) (req : Request) (code : AnswerCode) (result : List Byte) (s : State) :
    deliver ch code result (arrive ch req s) = answered ch code result s :=
  onChannel_onChannel s ch _ _

/-- Only the answering channel's handshake and answer differ after an answer. -/
@[simp] theorem answered_role (ch c : ChannelNo) (code : AnswerCode) (result : List Byte) (s : State) :
    (answered ch code result s).role c = s.role c := by
  simp only [State.role, answered, State.onChannel, State.setChannel, sel_upd]
  split
  · next h => rw [h]
  · rfl

@[simp] theorem ready_arrive (ch : ChannelNo) (req : Request) (s : State) :
    (arrive ch req s).ready = s.ready := rfl

@[simp] theorem role_arrive (ch : ChannelNo) (req : Request) (s : State) :
    (arrive ch req s).role ch = s.role ch := by
  simp [State.role, arrive, State.onChannel, State.setChannel]

/-- Setting flags and the arrival of a request do not meet. -/
theorem flag_arrive (req : Request) (c : Channel) (e : EventSet) :
    Channel.flag { c with handshake := .working true req, armed := false, answer := .zero } e =
      { c.flag e with handshake := .working true req, armed := false, answer := .zero } := by
  simp only [Channel.flag]; split <;> rfl

/-- What a request changes beside its channel's handshake settles as it does without the arrival. -/
theorem settle_arrive (ch : ChannelNo) (req : Request) (s t : State) :
    settle (arrive ch req s) (arrive ch req t) = arrive ch req (settle s t) :=
  settle_onChannel s t ch _ (flag_arrive req)

/-! ### The outcomes of a request -/

/-- Where no arrival can take place, nothing is seen. -/
theorem takeRequest_unseen {r : RequestSpec} {ch : ChannelNo} {a : Args} {s : State}
    (h : s.canArrive ch = false) : takeRequest r ch a s = s := by
  simp [takeRequest, h]

/-- During the start-up scan: NOT_READY. -/
theorem takeRequest_notReady {r : RequestSpec} {ch : ChannelNo} {a : Args} {s : State}
    (h : s.canArrive ch = true) (hr : s.ready = false) :
    takeRequest r ch a s = answered ch .notReady [] s := by
  simp only [takeRequest, h, if_true, handOn, precheck, ready_arrive, hr]
  exact deliver_arrive _ _ _ _ _

/-- With an argument byte set that the request does not use: BAD_REQUEST. -/
theorem takeRequest_badRequest {r : RequestSpec} {ch : ChannelNo} {a : Args} {s : State}
    (h : s.canArrive ch = true) (hr : s.ready = true) (hu : unusedZero a r.used = false) :
    takeRequest r ch a s = answered ch .badRequest [] s := by
  simp only [takeRequest, h, if_true, handOn, precheck, ready_arrive, hr, hu]
  exact deliver_arrive _ _ _ _ _

/-- Under a role the request does not admit: DENIED, with the bound role. -/
theorem takeRequest_denied {r : RequestSpec} {ch : ChannelNo} {a : Args} {s : State}
    (h : s.canArrive ch = true) (hr : s.ready = true) (hu : unusedZero a r.used = true)
    (ha : r.admits (s.role ch) = false) :
    takeRequest r ch a s = answered ch .denied [(s.role ch).byte] s := by
  simp only [takeRequest, h, if_true, handOn, precheck, ready_arrive, role_arrive, hr, hu, ha]
  exact deliver_arrive _ _ _ _ _

/-- Past the checks, the owning block runs. -/
theorem takeRequest_run {r : RequestSpec} {ch : ChannelNo} {a : Args} {s : State}
    (h : s.canArrive ch = true) (hr : s.ready = true) (hu : unusedZero a r.used = true)
    (ha : r.admits (s.role ch) = true) :
    takeRequest r ch a s = runRequest r ch a (arrive ch ⟨r.code, a⟩ s) := by
  simp only [takeRequest, h, if_true, handOn, precheck, ready_arrive, role_arrive, hr, hu, ha]
  rfl

/-- A request whose owning block answers at once, and does to the state with the request arrived what it does
to the state without: its effect settles, and its channel is answered. -/
theorem takeRequest_answer {r : RequestSpec} {ch : ChannelNo} {a : Args} {s t : State} {code : AnswerCode}
    {result : List Byte} (h : s.canArrive ch = true) (hr : s.ready = true)
    (hu : unusedZero a r.used = true) (ha : r.admits (s.role ch) = true)
    (hrun : r.run ch a (arrive ch ⟨r.code, a⟩ s) = (arrive ch ⟨r.code, a⟩ t, .now code result)) :
    takeRequest r ch a s = answered ch code result (settle s t) := by
  rw [takeRequest_run h hr hu ha, runRequest, hrun, settle_arrive]
  exact deliver_arrive _ _ _ _ _

/-- A request that is answered and changes nothing. -/
theorem takeRequest_reading {r : RequestSpec} {ch : ChannelNo} {a : Args} {s : State} {code : AnswerCode}
    {result : List Byte} (h : s.canArrive ch = true) (hr : s.ready = true)
    (hu : unusedZero a r.used = true) (ha : r.admits (s.role ch) = true)
    (hrun : r.run ch a (arrive ch ⟨r.code, a⟩ s) = (arrive ch ⟨r.code, a⟩ s, .now code result)) :
    takeRequest r ch a s = answered ch code result s := by
  rw [takeRequest_answer h hr hu ha hrun, settle_self]

/-! ### Roles as lists and as checks -/

theorem anyRole_iff (r : Role) : anyRole r = true ↔ r ∈ everyRole := by cases r <;> decide
theorem operatorOrEngineer_iff (r : Role) : operatorOrEngineer r = true ↔ r ∈ [Role.operator, .engineer] := by
  cases r <;> decide
theorem signedOn_iff (r : Role) : signedOn r = true ↔ r ∈ [Role.operator, .engineer, .quality] := by
  cases r <;> decide
theorem engineerOnly_iff (r : Role) : engineerOnly r = true ↔ r ∈ [Role.engineer] := by cases r <;> decide
theorem engineerOrQuality_iff (r : Role) : engineerOrQuality r = true ↔ r ∈ [Role.engineer, .quality] := by
  cases r <;> decide
theorem qualityOnly_iff (r : Role) : qualityOnly r = true ↔ r ∈ [Role.quality] := by cases r <;> decide

/-- What `Passes` says, for a request that admits just the roles listed. -/
theorem Passes.answer {r : RequestSpec} {ch : ChannelNo} {a : Args} {s t : State} {code : AnswerCode}
    {result : List Byte} {roles : List Role} (h : Passes r.used roles ch a s)
    (hroles : ∀ x, r.admits x = true ↔ x ∈ roles)
    (hrun : r.run ch a (arrive ch ⟨r.code, a⟩ s) = (arrive ch ⟨r.code, a⟩ t, .now code result)) :
    takeRequest r ch a s = answered ch code result (settle s t) :=
  takeRequest_answer h.1 h.2.1 h.2.2.1 ((hroles _).2 h.2.2.2) hrun

end Sys2Proof.Machine
end

