-- ==== Sys2Proof/Laws/Arrivals.lean ====
section
/-! SUPPORT. What an owning block does to a state in which a request has arrived: the same as without the arrival. -/

namespace Sys2Proof.Machine

/-! ### The write queue -/

theorem takeItem_arrive (ch : ChannelNo) (req : Request) (s : State) :
    takeItem (arrive ch req s) = arrive ch req (takeItem s) := by
  unfold takeItem
  simp only [arrive_writer, arrive_proposals, arrive_queue]
  split
  · rfl
  · split
    · rfl
    · next i _ => cases i <;> rfl

theorem enqueue_arrive (ch : ChannelNo) (req : Request) (i : WriteItem) (s : State) :
    enqueue i (arrive ch req s) = arrive ch req (enqueue i s) := by
  by_cases h : s.queue.contains i = true
  · unfold enqueue
    rw [if_pos (show (arrive ch req s).queue.contains i = true from h), if_pos h]
  · unfold enqueue
    rw [if_neg (show ¬ (arrive ch req s).queue.contains i = true from h), if_neg h]
    exact takeItem_arrive ch req { s with queue := s.queue ++ [i] }

/-! ### Stations, sections and outputs -/

theorem setStation_arrive (ch : ChannelNo) (req : Request) (s : State) (st : StationNo) (r : StationRec) :
    State.setStation (arrive ch req s) st r = arrive ch req (s.setStation st r) := rfl

theorem setOutput_arrive (ch : ChannelNo) (req : Request) (s : State) (sec : SectionNo) (o : Output) :
    State.setOutput (arrive ch req s) sec o = arrive ch req (s.setOutput sec o) := rfl

theorem setSectionRec_arrive (ch : ChannelNo) (req : Request) (s : State) (sec : SectionNo) (r : SectionRec) :
    State.setSectionRec (arrive ch req s) sec r = arrive ch req (s.setSectionRec sec r) := rfl

theorem steadyOn_arrive (ch : ChannelNo) (req : Request) (s : State) (sec : SectionNo) (f : FormatNo) :
    steadyOn sec f (arrive ch req s) = arrive ch req (steadyOn sec f s) := by
  unfold steadyOn
  simp only [arrive_sections, setSectionRec_arrive, enqueue_arrive]
  split <;> rfl

theorem recompute_arrive (ch : ChannelNo) (req : Request) (s : State) (sec : SectionNo) :
    recompute sec (arrive ch req s) = arrive ch req (recompute sec s) := by
  unfold recompute
  have hc : State.changing (arrive ch req s) sec = s.changing sec := rfl
  have hf : State.formatsIn (arrive ch req s) sec = s.formatsIn sec := rfl
  rw [hc, hf]
  split
  · rfl
  · split
    · rw [arrive_sections, steadyOn_arrive]
    · split
      · rw [steadyOn_arrive]
      · rfl

theorem clearPending_arrive (ch : ChannelNo) (req : Request) (s : State) (sec : SectionNo) :
    clearPending sec (arrive ch req s) = arrive ch req (clearPending sec s) := by
  unfold clearPending
  rw [arrive_stations]
  rfl

theorem endChangeover_arrive (ch : ChannelNo) (req : Request) (s : State) (sec : SectionNo) :
    endChangeover sec (arrive ch req s) = arrive ch req (endChangeover sec s) := by
  unfold endChangeover
  simp only [clearPending_arrive, arrive_sections, setSectionRec_arrive, recompute_arrive]

theorem adoptionNotice_arrive (ch : ChannelNo) (req : Request) (s : State) (sec : SectionNo) :
    adoptionNotice sec (arrive ch req s) = arrive ch req (adoptionNotice sec s) := by
  have hc : State.changing (arrive ch req s) sec = s.changing sec := rfl
  have hp : State.pendingSet (arrive ch req s) sec = s.pendingSet sec := rfl
  unfold adoptionNotice
  rw [hc, hp]
  split
  · rw [endChangeover_arrive]
  · rfl

theorem beginChangeover_arrive (ch : ChannelNo) (req : Request) (s : State) (sec : SectionNo) (target : FormatNo) :
    beginChangeover sec target (arrive ch req s) = arrive ch req (beginChangeover sec target s) := by
  have hm : ∀ t, markPending sec target (arrive ch req t) = arrive ch req (markPending sec target t) := by
    intro t
    unfold markPending
    rw [arrive_stations]
    rfl
  have hp : ∀ t, State.pendingSet (arrive ch req t) sec = t.pendingSet sec := fun _ => rfl
  unfold beginChangeover endAtOnce
  simp only [arrive_sections, setSectionRec_arrive, hm, hp, enqueue_arrive]
  split <;> rfl

/-! ### Drafts and cursors -/

theorem draft_arrive (ch : ChannelNo) (req : Request) (s : State) :
    State.draft (arrive ch req s) ch = s.draft ch := by
  simp [State.draft, arrive, State.onChannel, State.setChannel]

theorem setDraft_arrive (ch : ChannelNo) (req : Request) (s : State) (l : Option (List Change)) :
    State.setDraft (arrive ch req s) ch l = arrive ch req (s.setDraft ch l) := by
  simp only [State.setDraft, arrive, onChannel_onChannel]

theorem cursor_arrive (ch : ChannelNo) (req : Request) (s : State) :
    (sel (arrive ch req s).channels ch).cursor = (sel s.channels ch).cursor := by
  simp [arrive, State.onChannel, State.setChannel]

theorem setCursor_arrive (ch : ChannelNo) (req : Request) (s : State) (c : Cursor) :
    State.setCursor (arrive ch req s) ch c = arrive ch req (s.setCursor ch c) := by
  simp only [State.setCursor, arrive, onChannel_onChannel]

end Sys2Proof.Machine
end

