-- ==== Sys2Proof/Laws/Slots.lean ====
section
/-! SUPPORT. Sparse arrays: what a slot reads as after a write, and that every write keeps the canonical form. -/

namespace Sys2Proof.Machine

variable {α : Type}

theorem slotGet_put_same (m : SlotMap α) (n : Nat) (a : α) : slotGet (slotPut m n a) n = some a := by
  induction m with
  | nil => simp [slotPut, slotGet]
  | cons e m ih =>
    simp only [slotPut]
    split
    · simp [slotGet]
    · split
      · simp [slotGet]
      · simp [slotGet, *]

theorem slotGet_put_ne (m : SlotMap α) {n k : Nat} (a : α) (h : k ≠ n) :
    slotGet (slotPut m n a) k = slotGet m k := by
  induction m with
  | nil => simp [slotPut, slotGet, Ne.symm h]
  | cons e m ih =>
    simp only [slotPut]
    split
    · simp [slotGet, Ne.symm h]
    · split
      · next h' => subst h'; simp [slotGet, Ne.symm h]
      · simp only [slotGet, ih]

theorem slotGet_drop_ne (m : SlotMap α) {n k : Nat} (h : k ≠ n) : slotGet (slotDrop m n) k = slotGet m k := by
  induction m with
  | nil => rfl
  | cons e m ih =>
    simp only [slotDrop]
    split
    · next h' => subst h'; simp [slotGet, Ne.symm h]
    · simp only [slotGet, ih]

theorem slotsRise_mono {m : SlotMap α} {lo hi : Nat} (h : hi ≤ lo) (hm : slotsRise lo m = true) :
    slotsRise hi m = true := by
  cases m with
  | nil => rfl
  | cons e m =>
    simp only [slotsRise, Bool.and_eq_true, decide_eq_true_eq] at hm ⊢
    exact ⟨⟨by omega, hm.1.2⟩, hm.2⟩

/-- A slot below the first of a rising array is not listed. -/
theorem slotGet_below {m : SlotMap α} {lo n : Nat} (hm : slotsRise lo m = true) (h : n < lo) :
    slotGet m n = none := by
  induction m generalizing lo with
  | nil => rfl
  | cons e m ih =>
    simp only [slotsRise, Bool.and_eq_true, decide_eq_true_eq] at hm
    have : e.1 ≠ n := by omega
    simp only [slotGet, this, if_false]
    exact ih hm.2 (by omega)

theorem slotGet_drop_same {m : SlotMap α} {lo : Nat} (n : Nat) (hm : slotsRise lo m = true) :
    slotGet (slotDrop m n) n = none := by
  induction m generalizing lo with
  | nil => rfl
  | cons e m ih =>
    simp only [slotsRise, Bool.and_eq_true, decide_eq_true_eq] at hm
    simp only [slotDrop]
    split
    · next h => exact slotGet_below hm.2 (by omega)
    · next h => simp only [slotGet, h, if_false]; exact ih hm.2

theorem slotsRise_put {m : SlotMap α} {lo n : Nat} (a : α) (hm : slotsRise lo m = true) (hl : lo ≤ n)
    (hn : n < Config.slotCount) : slotsRise lo (slotPut m n a) = true := by
  induction m generalizing lo with
  | nil => simp [slotPut, slotsRise, hl, hn]
  | cons e m ih =>
    simp only [slotsRise, Bool.and_eq_true, decide_eq_true_eq] at hm
    simp only [slotPut]
    split
    · simp only [slotsRise, Bool.and_eq_true, decide_eq_true_eq]
      exact ⟨⟨hl, hn⟩, ⟨by omega, hm.1.2⟩, hm.2⟩
    · split
      · next h => subst h; simp only [slotsRise, Bool.and_eq_true, decide_eq_true_eq]; exact ⟨⟨hl, hn⟩, hm.2⟩
      · simp only [slotsRise, Bool.and_eq_true, decide_eq_true_eq]
        exact ⟨hm.1, ih hm.2 (by omega)⟩

theorem slotsRise_drop {m : SlotMap α} {lo : Nat} (n : Nat) (hm : slotsRise lo m = true) :
    slotsRise lo (slotDrop m n) = true := by
  induction m generalizing lo with
  | nil => rfl
  | cons e m ih =>
    simp only [slotsRise, Bool.and_eq_true, decide_eq_true_eq] at hm
    simp only [slotDrop]
    split
    · exact slotsRise_mono (by omega) hm.2
    · simp only [slotsRise, Bool.and_eq_true, decide_eq_true_eq]; exact ⟨hm.1, ih hm.2⟩

theorem mem_slotPut {m : SlotMap α} {n : Nat} {a : α} {e : Nat × α} (h : e ∈ slotPut m n a) :
    e = (n, a) ∨ e ∈ m := by
  induction m with
  | nil => simpa [slotPut] using h
  | cons x m ih =>
    simp only [slotPut] at h
    split at h
    · simpa using h
    · split at h
      · rcases List.mem_cons.1 h with h | h
        · exact .inl h
        · exact .inr (List.mem_cons_of_mem _ h)
      · rcases List.mem_cons.1 h with h | h
        · exact .inr (h ▸ List.mem_cons_self)
        · exact (ih h).imp id (List.mem_cons_of_mem _)

theorem mem_slotDrop {m : SlotMap α} {n : Nat} {e : Nat × α} (h : e ∈ slotDrop m n) : e ∈ m := by
  induction m with
  | nil => exact h
  | cons x m ih =>
    simp only [slotDrop] at h
    split at h
    · exact List.mem_cons_of_mem _ h
    · rcases List.mem_cons.1 h with h | h
      · exact h ▸ List.mem_cons_self
      · exact List.mem_cons_of_mem _ (ih h)

/-- The working form stays canonical when a slot of the array is filled. -/
theorem workingWf_put {m : SlotMap Entry} {n : Nat} (e : Entry) (hm : workingWf m = true)
    (hn : n < Config.slotCount) : workingWf (slotPut m n e) = true :=
  slotsRise_put e hm (Nat.zero_le n) hn

/-- The working form stays canonical when a slot is freed. -/
theorem workingWf_drop {m : SlotMap Entry} (n : Nat) (hm : workingWf m = true) :
    workingWf (slotDrop m n) = true :=
  slotsRise_drop n hm

/-- The non-volatile array stays canonical at every slot write. -/
theorem wf_writeSlot {a : NvArray} {n : Nat} (c : NvSlot) (ha : a.wf = true) (hn : n < Config.slotCount) :
    (a.writeSlot n c).wf = true := by
  simp only [NvArray.wf, Bool.and_eq_true, List.all_eq_true, decide_eq_true_eq, NvArray.writeSlot] at ha ⊢
  split
  · exact ⟨slotsRise_drop n ha.1, fun e he => ha.2 e (mem_slotDrop he)⟩
  · next h =>
    refine ⟨slotsRise_put c ha.1 (Nat.zero_le n) hn, fun e he => ?_⟩
    rcases mem_slotPut he with rfl | he
    · exact h
    · exact ha.2 e he

/-- A written slot reads as written. -/
theorem slot_writeSlot_same {a : NvArray} (n : Nat) (c : NvSlot) (ha : a.wf = true) :
    (a.writeSlot n c).slot n = c := by
  simp only [NvArray.wf, Bool.and_eq_true] at ha
  simp only [NvArray.slot, NvArray.writeSlot]
  split
  · next h => rw [slotGet_drop_same n ha.1, h]; rfl
  · rw [slotGet_put_same]; rfl

/-- The other slots read as before. -/
theorem slot_writeSlot_ne (a : NvArray) {n k : Nat} (c : NvSlot) (h : k ≠ n) :
    (a.writeSlot n c).slot k = a.slot k := by
  simp only [NvArray.slot, NvArray.writeSlot]
  split
  · rw [slotGet_drop_ne _ h]
  · rw [slotGet_put_ne _ _ h]

@[simp] theorem writeSlot_stations (a : NvArray) (n : Nat) (c : NvSlot) : (a.writeSlot n c).stations = a.stations :=
  rfl
@[simp] theorem writeSlot_sections (a : NvArray) (n : Nat) (c : NvSlot) : (a.writeSlot n c).sections = a.sections :=
  rfl
@[simp] theorem writeSlot_moduleRec (a : NvArray) (n : Nat) (c : NvSlot) :
    (a.writeSlot n c).moduleRec = a.moduleRec := rfl

/-- The array and the working form at reset are canonical. -/
theorem reset_canonical : State.reset.array.wf = true ∧ workingWf State.reset.slots = true := ⟨rfl, rfl⟩

end Sys2Proof.Machine
end

