-- ==== Sys2Proof/Laws/Queue.lean ====
section
/-! SUPPORT. The write queue, the writer's taking of an item, and the slot writes it forms. -/

namespace Sys2Proof.Machine

/-! ### Taking an item -/

theorem takeItem_busy {s : State} {j : Job} (h : s.writer = some j) : takeItem s = s := by
  simp [takeItem, h]

theorem firstItem_mem {l : List Proposal} {q : List WriteItem} {i : WriteItem} (h : firstItem l q = some i) :
    i ∈ q := by
  induction q generalizing i with
  | nil => cases h
  | cons x q ih =>
    simp only [firstItem] at h
    split at h
    · cases h; exact List.mem_cons_self
    · next j hj =>
      split at h
      · cases h; exact List.mem_cons_of_mem _ (ih hj)
      · cases h; exact List.mem_cons_self

theorem firstItem_none {l : List Proposal} {q : List WriteItem} (h : firstItem l q = none) : q = [] := by
  cases q with
  | nil => rfl
  | cons x q =>
    simp only [firstItem] at h
    split at h
    · cases h
    · split at h <;> cases h

/-- No item of the queue stands before the one the writer takes. -/
theorem firstItem_least {l : List Proposal} {q : List WriteItem} {i : WriteItem} (h : firstItem l q = some i) :
    ∀ j ∈ q, itemRank l i ≤ itemRank l j := by
  induction q generalizing i with
  | nil => cases h
  | cons x q ih =>
    simp only [firstItem] at h
    split at h
    · next hq => cases h; rw [firstItem_none hq]; simp
    · next k hk =>
      split at h
      · next hlt =>
        cases h
        intro j hj
        rcases List.mem_cons.1 hj with rfl | hj
        · exact Nat.le_of_lt hlt
        · exact ih hk j hj
      · next hge =>
        cases h
        intro j hj
        rcases List.mem_cons.1 hj with rfl | hj
        · exact Nat.le_refl _
        · exact Nat.le_trans (Nat.le_of_not_lt hge) (ih hk j hj)

/-- Everything a taking can do: nothing, or a free writer takes an item of the queue. -/
theorem takeItem_spec (s : State) :
    takeItem s = s ∨ ∃ i ∈ s.queue, s.writer = none ∧
      takeItem s = { s with queue := s.queue.erase i, writer := formJob s i } := by
  unfold takeItem
  split
  · exact .inl rfl
  · next hw =>
    split
    · exact .inl rfl
    · next i hi => exact .inr ⟨i, firstItem_mem hi, hw, rfl⟩

/-! ### Joining the queue -/

theorem enqueue_queued {s : State} {i : WriteItem} (h : i ∈ s.queue) : enqueue i s = s := by
  simp [enqueue, h]

theorem enqueue_new {s : State} {i : WriteItem} (h : i ∉ s.queue) :
    enqueue i s = takeItem { s with queue := s.queue ++ [i] } := by
  simp [enqueue, h]

/-! ### Slot writes -/

theorem lowestFree_spec {taken : List Nat} {fuel n k : Nat} (h : lowestFree taken fuel n = some k) :
    n ≤ k ∧ k < n + fuel ∧ k ∉ taken ∧ ∀ j, n ≤ j → j < k → j ∈ taken := by
  induction fuel generalizing n with
  | zero => cases h
  | succ fuel ih =>
    simp only [lowestFree] at h
    split at h
    · next ht =>
      obtain ⟨h1, h2, h3, h4⟩ := ih h
      refine ⟨by omega, by omega, h3, fun j hj hk => ?_⟩
      rcases Nat.eq_or_lt_of_le hj with rfl | hj
      · simpa using ht
      · exact h4 j (by omega) hk
    · next ht =>
      cases h
      exact ⟨Nat.le_refl _, by omega, by simpa using ht, fun j _ _ => by omega⟩

theorem findEntry_mem {m : SlotMap Entry} {k : Key} {x : Nat × Entry} (h : findEntry m k = some x) :
    x ∈ m ∧ x.2.key = k := by
  induction m with
  | nil => cases h
  | cons e m ih =>
    simp only [findEntry] at h
    split at h
    · next hk => cases h; exact ⟨List.mem_cons_self, hk⟩
    · exact ⟨List.mem_cons_of_mem _ (ih h).1, (ih h).2⟩

theorem findEntry_none {m : SlotMap Entry} {k : Key} (h : findEntry m k = none) : ∀ x ∈ m, x.2.key ≠ k := by
  induction m with
  | nil => simp
  | cons e m ih =>
    simp only [findEntry] at h
    split at h
    · cases h
    · next hk =>
      intro x hx
      rcases List.mem_cons.1 hx with rfl | hx
      · exact hk
      · exact ih h x hx

theorem slotsRise_lt {α : Type} {m : SlotMap α} {lo : Nat} (h : slotsRise lo m = true) :
    ∀ x ∈ m, x.1 < Config.slotCount := by
  induction m generalizing lo with
  | nil => simp
  | cons e m ih =>
    simp only [slotsRise, Bool.and_eq_true, decide_eq_true_eq] at h
    intro x hx
    rcases List.mem_cons.1 hx with rfl | hx
    · exact h.1.2
    · exact ih h.2 x hx

/-- Every slot write that is formed names a slot of the array. -/
theorem planSlots_inArray {m : SlotMap Entry} {all l : List Change} {taken : List Nat} {plans : List SlotPlan}
    (hm : workingWf m = true) (h : planSlots m all taken l = some plans) :
    ∀ p ∈ plans, p.slot < Config.slotCount := by
  induction l generalizing taken plans with
  | nil => cases h; simp
  | cons c l ih =>
    cases c with
    | set k e v low high tol =>
      simp only [planSlots] at h
      split at h
      · cases h
      · next n x hx =>
        obtain ⟨rest, hr, rfl⟩ := Option.map_eq_some_iff.1 h
        intro p hp
        rcases List.mem_cons.1 hp with rfl | hp
        · exact slotsRise_lt hm _ (findEntry_mem hx).1
        · exact ih hr p hp
    | create k v low high tol cls partner =>
      simp only [planSlots] at h
      split at h
      · cases h
      · next n hn =>
        obtain ⟨rest, hr, rfl⟩ := Option.map_eq_some_iff.1 h
        intro p hp
        rcases List.mem_cons.1 hp with rfl | hp
        · have := (lowestFree_spec hn).2.1; simpa using this
        · exact ih hr p hp
    | retire k e =>
      simp only [planSlots] at h
      split at h
      · cases h
      · next n x hx =>
        obtain ⟨rest, hr, rfl⟩ := Option.map_eq_some_iff.1 h
        intro p hp
        rcases List.mem_cons.1 hp with rfl | hp
        · exact slotsRise_lt hm _ (findEntry_mem hx).1
        · exact ih hr p hp

end Sys2Proof.Machine
end

