-- ==== Sys2Proof/Laws/Stations.lean ====
section
/-! SUPPORT. What findings, rebuilds and re-judgement do to a station record. -/

namespace Sys2Proof.Machine

/-! ### Only the list and its overflow change -/

/-- A finding changes the list and its overflow alone. -/
theorem append_frame (r : StationRec) (d : DivRecord) :
    r.append d = { r with list := (r.append d).list, overflow := (r.append d).overflow } := by
  simp only [StationRec.append]; split <;> rfl

theorem find_frame (r : StationRec) (p : ParamNo) (k : ParamKind) (v : Option Word) :
    r.find p k v = { r with list := (r.find p k v).list, overflow := (r.find p k v).overflow } := by
  simp only [StationRec.find]
  split
  · rfl
  · exact append_frame _ _

theorem findLevel_frame (r : StationRec) (k : LevelKind) (f : FormatNo) (d : Word) :
    r.findLevel k f d = { r with list := (r.findLevel k f d).list, overflow := (r.findLevel k f d).overflow } := by
  simp only [StationRec.findLevel]
  split
  · rfl
  · exact append_frame _ _

theorem rejudgeRec_frame (p : ParamNo) (before : Resolution) (now : Option Entry) (r : StationRec) :
    rejudgeRec p before now r =
      { r with list := (rejudgeRec p before now r).list, overflow := (rejudgeRec p before now r).overflow } := by
  unfold rejudgeRec
  split
  · split
    · exact find_frame _ _ _ _
    · split
      · exact find_frame _ _ _ _
      · split
        · exact find_frame _ _ _ _
        · rfl
  · split <;> rfl
  · split
    · exact append_frame _ _
    · rfl

/-! ### The list holds at most eight records -/

theorem append_length {r : StationRec} (d : DivRecord) (h : r.list.length ≤ 8) : (r.append d).list.length ≤ 8 := by
  simp only [StationRec.append]
  split
  · next hl => rw [List.length_append]; exact hl
  · exact h

theorem find_length {r : StationRec} (p : ParamNo) (k : ParamKind) (v : Option Word) (h : r.list.length ≤ 8) :
    (r.find p k v).list.length ≤ 8 := by
  simp only [StationRec.find]
  split
  · simpa using h
  · exact append_length _ h

theorem findLevel_length {r : StationRec} (k : LevelKind) (f : FormatNo) (d : Word) (h : r.list.length ≤ 8) :
    (r.findLevel k f d).list.length ≤ 8 := by
  simp only [StationRec.findLevel]
  split
  · simpa using h
  · exact append_length _ h

theorem settleParam_length {r : StationRec} (p : ParamNo) (h : r.list.length ≤ 8) :
    (r.settleParam p).list.length ≤ 8 :=
  Nat.le_trans (List.length_filter_le _ _) h

theorem settleLevel_length {r : StationRec} (h : r.list.length ≤ 8) : r.settleLevel.list.length ≤ 8 :=
  Nat.le_trans (List.length_filter_le _ _) h

theorem rebuildRec_length (m : SlotMap Entry) (st : StationNo) (r : StationRec) :
    (rebuildRec m st r).list.length ≤ 8 := by
  simp only [rebuildRec, List.length_map, List.length_take]
  exact Nat.min_le_left _ _

theorem rejudgeRec_length {r : StationRec} (p : ParamNo) (before : Resolution) (now : Option Entry)
    (h : r.list.length ≤ 8) : (rejudgeRec p before now r).list.length ≤ 8 := by
  unfold rejudgeRec
  split
  · split
    · exact find_length _ _ _ h
    · split
      · exact find_length _ _ _ h
      · split
        · exact find_length _ _ _ h
        · exact settleParam_length _ h
  · split
    · exact h
    · exact settleParam_length _ h
  · split
    · exact append_length _ h
    · exact h

/-! ### Re-judgement touches stations alone -/

theorem rejudgeOne_frame (before : SlotMap Entry) (keys : List Key) (s : State) (t : StationNo × ParamNo) :
    rejudgeOne before keys s t = { s with stations := (rejudgeOne before keys s t).stations } := by
  simp only [rejudgeOne]; split <;> rfl

/-- Everything a re-judgement can change is the stations' records. -/
theorem rejudge_frame (before : SlotMap Entry) (keys : List Key) (s : State) :
    rejudge before keys s = { s with stations := (rejudge before keys s).stations } := by
  unfold rejudge
  generalize targetsOf keys = l
  induction l generalizing s with
  | nil => rfl
  | cons t l ih =>
    rw [List.foldl_cons, ih, rejudgeOne_frame]

end Sys2Proof.Machine
end

