-- ==== Sys2Proof/Laws/Table.lean ====
section
/-! SUPPORT. The entry with exactly a key, the timers that are due, and the results a completion hands to the table. -/

namespace Sys2Proof.Machine

/-! ### The entry with exactly a key -/

theorem entryAt_cons (x : Nat × Entry) (m : SlotMap Entry) (k : Key) :
    entryAt (x :: m) k = if x.2.key = k then some x.2 else entryAt m k := by
  unfold entryAt
  simp only [findEntry]
  split <;> rfl

/-- What is found is listed, and has the key. -/
theorem entryAt_some {m : SlotMap Entry} {k : Key} {e : Entry} (h : entryAt m k = some e) :
    e ∈ m.map Prod.snd ∧ e.key = k := by
  induction m with
  | nil => cases h
  | cons x m ih =>
    rw [entryAt_cons] at h
    split at h
    · next hk => cases h; exact ⟨List.mem_cons_self, hk⟩
    · exact ⟨List.mem_cons_of_mem _ (ih h).1, (ih h).2⟩

theorem entryAt_none {m : SlotMap Entry} {k : Key} : entryAt m k = none ↔ ∀ e ∈ m.map Prod.snd, e.key ≠ k := by
  induction m with
  | nil => simp [entryAt, findEntry]
  | cons x m ih =>
    rw [entryAt_cons]
    split
    · next hk => simp [hk]
    · next hk => rw [ih]; simp [hk]

/-- What is listed under a key is found, where no key is listed twice. -/
theorem entryAt_of_mem {m : SlotMap Entry} {e : Entry} (hu : KeysUnique m) (h : e ∈ m.map Prod.snd) :
    entryAt m e.key = some e := by
  induction m with
  | nil => cases h
  | cons x m ih =>
    rw [entryAt_cons]
    rcases List.mem_cons.1 h with rfl | h
    · simp
    · have hx : x.2.key ∉ m.map fun e => e.2.key := (List.nodup_cons.1 hu).1
      have : x.2.key ≠ e.key := by
        intro hk
        obtain ⟨y, hy, rfl⟩ := List.mem_map.1 h
        exact hx (List.mem_map.2 ⟨y, hy, hk.symm⟩)
      rw [if_neg this]
      exact ih (List.nodup_cons.1 hu).2 h

/-! ### Timers that are due -/

@[simp] theorem timerDue_none : timerDue none = false := rfl

@[simp] theorem timerDue_some (ms : Nat) : timerDue (some ms) = decide (ms ≤ 10) := rfl

/-! ### The results of a completion -/

/-- The table takes the same slot writes as the answer tells of. -/
@[simp] theorem tableResults_plans (freed : List Nat) (all : List SlotResult) :
    (tableResults freed all).map Prod.fst = all.map Prod.fst := by
  simp [tableResults, Function.comp_def]

/-- What the table takes as verified was verified. -/
theorem tableResults_verified {freed : List Nat} {all : List SlotResult} {p : SlotPlan}
    (h : (p, true) ∈ tableResults freed all) : (p, true) ∈ all := by
  obtain ⟨d, hd, he⟩ := List.mem_map.1 h
  obtain ⟨rfl, hb⟩ := Prod.mk.inj he
  have : d.2 = true := by
    cases h2 : d.2 with
    | false => rw [h2] at hb; cases hb
    | true => rfl
  rwa [← this]

/-- Where no slot was freed the table takes the results as they are. -/
@[simp] theorem tableResults_nil (all : List SlotResult) : tableResults [] all = all := by
  have : ∀ l : List SlotResult, (l.any fun _ => false) = false := fun l => by simp
  simp [tableResults, pairFreed, this]

/-- The entry that a slot result leaves in its own slot: none for a RETIRE that verified and whose partner's did
not fail, else the plan's, DAMAGED for a RETIRE or a failure. -/
theorem applyResult_same {all : List SlotResult} {m : SlotMap Entry} (d : SlotResult) (hm : workingWf m = true) :
    slotGet (applyResult all m d) d.1.slot =
      match d.1.kind with
      | .retire => if d.2 && !mateFailed all d.1 then none else some (d.1.entry none)
      | .set => some (d.1.entry (if d.2 then d.1.body else none))
      | .create => some (d.1.entry (if d.2 then d.1.body else none)) := by
  unfold applyResult
  cases d.1.kind with
  | retire =>
    dsimp only
    split
    · exact slotGet_drop_same (lo := 0) _ hm
    · exact slotGet_put_same _ _ _
  | set => exact slotGet_put_same _ _ _
  | create => exact slotGet_put_same _ _ _

/-- A slot result leaves every other slot. -/
theorem applyResult_ne {all : List SlotResult} {m : SlotMap Entry} {d : SlotResult} {n : Nat} (h : n ≠ d.1.slot) :
    slotGet (applyResult all m d) n = slotGet m n := by
  unfold applyResult
  cases d.1.kind with
  | retire =>
    dsimp only
    split
    · exact slotGet_drop_ne _ h
    · exact slotGet_put_ne _ _ h
  | set => exact slotGet_put_ne _ _ h
  | create => exact slotGet_put_ne _ _ h

/-- A slot result keeps the table's canonical form. -/
theorem workingWf_applyResult {all : List SlotResult} {m : SlotMap Entry} {d : SlotResult} (hm : workingWf m = true)
    (hd : d.1.slot < Config.slotCount) : workingWf (applyResult all m d) = true := by
  unfold applyResult
  cases d.1.kind with
  | retire =>
    dsimp only
    split
    · exact workingWf_drop _ hm
    · exact workingWf_put _ hm hd
  | set => exact workingWf_put _ hm hd
  | create => exact workingWf_put _ hm hd

/-- The freed slots after a completion: those freed before and those whose RETIRE verified, of the slots that the
table still holds. -/
theorem mem_freedAfter {freed : List Nat} {all : List SlotResult} {m : SlotMap Entry} {n : Nat} :
    n ∈ freedAfter freed all m ↔
      n ∈ m.map Prod.fst ∧ (n ∈ freed ∨ ∃ p, (p, true) ∈ all ∧ p.slot = n ∧ p.kind = .retire) := by
  simp only [freedAfter, List.mem_filter, Bool.or_eq_true, List.contains_iff_mem, List.any_eq_true, Bool.and_eq_true,
    beq_iff_eq]
  constructor
  · rintro ⟨h, h' | ⟨⟨p, b⟩, hd, ⟨h1, h2⟩, h3⟩⟩
    · exact ⟨h, .inl h'⟩
    · exact ⟨h, .inr ⟨p, by cases h3; exact hd, h1, h2⟩⟩
  · rintro ⟨h, h' | ⟨p, hd, h1, h2⟩⟩
    · exact ⟨h, .inl h'⟩
    · exact ⟨h, .inr ⟨(p, true), hd, ⟨h1, h2⟩, rfl⟩⟩

end Sys2Proof.Machine
end

