-- ==== Sys2Proof/Tests/Slice0.lean ====
section
/-! SUPPORT. Tests: ill-formed commands refused, single steps of the manual's worked sequences, and for every statement concrete states that meet its hypotheses. -/

namespace Sys2Proof.Tests

open Sys2Proof Sys2Proof.Machine

-- One theorem at a time: each kernel evaluation waits for all before it, and side by side they fill memory.
set_option Elab.async false

/-! ### Well-formedness -/

theorem test_wf_unknown_listed_code : (Instr.unknownRequest 0 0x10 (Vector.replicate 10 0)).wf = false := by decide
theorem test_wf_unknown_free_code : (Instr.unknownRequest 0 0x0A (Vector.replicate 10 0)).wf = true := by decide
theorem test_wf_expiry_zero : (Instr.proposalExpiry 0).wf = false := by decide
theorem test_wf_expiry_256 : (Instr.proposalExpiry 256).wf = false := by decide
theorem test_wf_expiry_255 : (Instr.proposalExpiry 255).wf = true := by decide
theorem test_wf_scan_2048 : (Instr.startUpScanEnd [(.slot 2048, .torn)]).wf = false := by decide
theorem test_wf_scan_2047 : (Instr.startUpScanEnd [(.slot 2047, .torn), (.station 3, .old)]).wf = true := by decide
theorem test_wf_power_2048 :
    (Instr.powerOn ⟨.old, .old, .old, [(.slot 2048, .new)]⟩ (Vector.replicate 4 false)).wf = false := by decide
theorem test_wf_busReset_2048 :
    (Instr.busReset ⟨.old, .old, .old, [(.slot 2048, .new)]⟩ (Vector.replicate 4 false)).wf = false := by decide
theorem test_wf_asserted_2048 :
    (Instr.busResetLineAsserted ⟨.old, .old, .old, [(.slot 2048, .new)]⟩).wf = false := by decide
theorem test_wf_supply_2048 :
    (Instr.logicSupplyLoss ⟨.old, .old, .old, [(.slot 2048, .new)]⟩).wf = false := by decide
theorem test_wf_supply_2047 :
    (Instr.logicSupplyLoss ⟨.torn, .new, .old, [(.slot 2047, .new)]⟩).wf = true := by decide

/-! ### The station of chapter 11 -/

/-- Argument bytes, 0 after those named. -/
def args (l : List Nat) : Args := Vector.ofFn fun i => BitVec.ofNat 8 (l.getD i.val 0)

/-- A two-byte field. -/
def two (n : Nat) : List Nat := [n % 256, n / 256 % 256]

/-- A four-byte field. -/
def four (n : Nat) : List Nat := two n ++ two (n / 65536)

/-- A key as the manual writes it. -/
def key (st f p : Nat) : Key := ⟨Fin.ofNat 32 (st - 1), Fin.ofNat 16 f, Fin.ofNat 1024 p⟩

/-- The argument bytes of a key. -/
def keyOf (st f p : Nat) : List Nat := [st, f] ++ two p

/-- Table 67, with a DAMAGED entry and one of class FIXED beside it. -/
def entries : SlotMap Entry :=
  [(0, ⟨key 3 0 130, .tunable, none, some ⟨240, some 200, some 280, 2, 5⟩⟩),
   (1, ⟨key 3 4 120, .guarded, some 121, some ⟨3300, some 3280, some 3320, 5, 3⟩⟩),
   (2, ⟨key 3 4 121, .guarded, some 120, some ⟨1850, none, some 2000, 20, 3⟩⟩),
   (3, ⟨key 8 0 7, .guarded, none, none⟩),
   (4, ⟨key 8 0 9, .fixed, none, some ⟨10, none, none, 0, 65535⟩⟩)]

/-- Station 3 of chapter 11, CONFORMING. -/
def filler : StationRec := ⟨⟨true, 0, 5, 4⟩, none, some 5000, false, true, false, [], false⟩

/-- Chapter 11 at its start: section 1 on format 4, channel 1 without a role, channel 2 an OPERATOR, channel
3 an ENGINEER, channel 4 QUALITY, the last proposal number 21. -/
def start : State :=
  { State.reset with
    phase := .running
    slots := entries
    array := { NvArray.factory with slots := entries.map fun e => (e.1, ⟨.entry e.2.key e.2.cls e.2.partner, e.2.body⟩) }
    digests := upd State.reset.digests 2 (upd (Vector.replicate 15 ⟨0, 0⟩) 3 ⟨24330400, 3⟩)
    lastNumber := 21
    nextStamp := 41
    channels := (((State.reset.onChannel 1 fun c => { c with role := .operator }).onChannel 2 fun c =>
      { c with role := .engineer }).onChannel 3 fun c => { c with role := .quality }).channels
    stations := upd State.reset.stations 2 filler
    sections := upd State.reset.sections 0 ⟨⟨4, 600⟩, .steady⟩
    outputs := upd State.reset.outputs 0 { Output.fresh true with commanded := true } }

/-- The state after a command; the same state where the command is stopped. -/
def after (c : Instr) (s : State) : State :=
  match exec c s with
  | .next t => t
  | .fault _ => s
  | .refused _ => s

/-- The answer area of a channel as numbers: the code, then the result bytes. -/
def answerOf (ch : ChannelNo) (s : State) : List Nat :=
  (sel s.channels ch).answer.code.toNat :: (sel s.channels ch).answer.result.toList.map BitVec.toNat

/-! ### Single steps of chapter 11 -/

/-- Table 68 at 0.5. -/
theorem test_report_deviates :
    answerOf 0 (after (.reportValue 0 (args ([3] ++ two 130 ++ four 246))) start) = [1, 3, 3, 1, 5, 0, 0, 0, 0, 0, 0] ∧
      (sel (after (.reportValue 0 (args ([3] ++ two 130 ++ four 246))) start).outputs 0).commanded = false := by
  decide +kernel

/-- Table 68 at 1.0 and 1.2. -/
theorem test_check_value :
    answerOf 1 (after (.checkValue 1 (args (keyOf 3 4 130 ++ four 246))) start) = [1, 3, 7, 5, 0, 0, 0, 0, 0, 0, 0] := by
  decide +kernel
theorem test_lookup_exact :
    answerOf 1 (after (.lookupExact 1 (args (keyOf 3 0 130))) start) = [1, 240, 0, 0, 0, 5, 0, 0, 2, 0, 6] := by
  decide +kernel

/-- The operator's draft of section 11.1. -/
def trim : Change := Change.set (key 3 0 130) 5 246 .unchanged .unchanged none

/-- The pair of section 11.2. -/
def fill : List Change :=
  [Change.set (key 3 4 120) 3 3310 (.value 3290) (.value 3330) none,
   Change.set (key 3 4 121) 3 1860 .unchanged .unchanged none]

/-- Table 68 at 1.6: the proposal takes number 22. -/
theorem test_submit_trim :
    answerOf 1 (after (.draftSubmit 1 (args [])) (start.setDraft 1 (some [trim]))) =
      [1, 22, 1, 132, 3, 0, 0, 0, 0, 0, 0] := by decide +kernel

/-- Table 69, step 2: PARTNER_REQUIRED with index 0. -/
theorem test_submit_half_pair :
    answerOf 2 (after (.draftSubmit 2 (args [])) (start.setDraft 2 (some (fill.take 1)))) =
      [0x18, 0, 0, 0, 0, 0, 0, 0, 0, 0, 0] := by decide +kernel

/-- Table 69, step 4: QUALITY_ONLY. -/
theorem test_submit_pair :
    answerOf 2 (after (.draftSubmit 2 (args [])) (start.setDraft 2 (some fill))) =
      [1, 22, 2, 132, 3, 0, 0, 0, 0, 0, 0] := by decide +kernel

/-- Table 68 at 2.0. -/
theorem test_report_mismatch :
    answerOf 0 (after (.reportDigest 0 (args ([3, 4] ++ two 3 ++ four 24330418))) start) =
      [1, 12, 3, 1, 160, 64, 115, 1, 3, 0, 0] := by decide +kernel

/-- Proposal 22 of section 11.1, AWAITING. -/
def proposal22 : Proposal :=
  ⟨22, 40, 1, .operator, [trim], .engineerOrQuality, .awaiting 900000⟩

/-- Proposal 22 being written for channel 3. -/
def writing22 : State :=
  { start with
    proposals := [{ proposal22 with state := .writing 2 }]
    writer := some (.proposal 2 22
      [⟨.set, 0, key 3 0 130, .tunable, none, some ⟨246, some 200, some 280, 2, 6⟩⟩] [])
    channels := upd start.channels 2
      { sel start.channels 2 with handshake := .working true ⟨0x30, args [22]⟩, armed := false } }

/-- Table 68 at 2.5: the writer takes the item at once. -/
theorem test_approve_begins :
    after (.approve 2 (args [22])) { start with proposals := [proposal22] } = writing22 := by decide +kernel

/-- The completion of section 11.1. -/
theorem test_completion :
    answerOf 2 (after (.proposalItemCompletion .verified) writing22) = [1, 22, 6, 0, 0, 0, 0, 0, 0, 0, 0] ∧
      State.pairOf (after (.proposalItemCompletion .verified) writing22) 2 4 = ⟨24330418, 3⟩ ∧
      entryAt (after (.proposalItemCompletion .verified) writing22).slots (key 3 0 130) =
        some ⟨key 3 0 130, .tunable, none, some ⟨246, some 200, some 280, 2, 6⟩⟩ ∧
      (after (.proposalItemCompletion .verified) writing22).proposals = [] := by decide +kernel

/-- A failed slot leaves its entry DAMAGED and the store DEGRADED (R9, R85). -/
theorem test_completion_failed :
    answerOf 2 (after (.proposalItemCompletion (.failed .old .torn)) writing22) = [0x2D, 22, 2, 0, 0, 0, 0, 0, 0, 0, 0] ∧
      (after (.proposalItemCompletion (.failed .old .torn)) writing22).degraded = true ∧
      State.pairOf (after (.proposalItemCompletion (.failed .old .torn)) writing22) 2 4 = ⟨15809869, 2⟩ := by
  decide +kernel

/-- Table 69, step 6: the hold turns the permissive OFF. -/
theorem test_hold :
    (sel (after (.hold 2 (args [3])) start).outputs 0).commanded = false ∧
      derivedState (sel (after (.hold 2 (args [3])) start).stations 2) = .held := by decide +kernel

/-- Section 2 of section 11.3 during its changeover to format 11, stations 5 and 7 adopted and 6 not. -/
def changing2 : State :=
  { start with
    sections := upd start.sections 1 ⟨⟨9, 600⟩, .changing 11 0⟩
    stations := upd (upd (upd start.stations 4 ⟨⟨true, 1, 5, 11⟩, none, some 1, false, true, false, [], false⟩)
      5 ⟨⟨true, 1, 5, 9⟩, some 2, none, false, true, true, [], false⟩)
      6 ⟨⟨true, 1, 5, 11⟩, none, some 1, false, true, false, [], false⟩ }

/-- Table 70 at 610: the expiry leaves the section SPLIT on format 9, no station pending. -/
theorem test_deadline :
    sel (after (.deadlineExpiry 1) changing2).sections 1 = ⟨⟨9, 600⟩, .split⟩ ∧
      (sel (after (.deadlineExpiry 1) changing2).stations 5).pending = false ∧
      (after (.deadlineExpiry 1) changing2).queue = [] := by decide +kernel

/-- R104, R149 and R167: an expiry that was due does not occur once the timer has been started again. -/
theorem test_expiry_after_restart :
    after .releaseExpiry (after (.openRelease 3 (args (two 60))) { start with release := some 0 }) =
      after (.openRelease 3 (args (two 60))) { start with release := some 0 } ∧
    (after .releaseExpiry { start with release := some 0 }).release = none := by decide +kernel
theorem test_window_after_report :
    (sel (after (.windowExpiry 2) (after (.reportDigest 0 (args ([3, 4] ++ two 3 ++ four 24330400)))
      (start.setStation 2 { filler with timer := some 0 }))).stations 2).stale = false ∧
    (sel (after (.windowExpiry 2) (start.setStation 2 { filler with timer := some 0 })).stations 2).stale = true := by
  decide +kernel
theorem test_bypass_after_request :
    (sel (after (.bypassExpiry 0) (after (.setOutputMode 2 (args ([1, 2] ++ two 10)))
      (start.setOutput 0 { Output.fresh true with mode := .bypass 0, commanded := true }))).outputs 0).mode =
      .bypass 10000 := by decide +kernel

/-- The RETIREs of the pair of section 11.2. -/
def retirePlans : List SlotPlan :=
  [⟨.retire, 1, key 3 4 120, .guarded, some 121, none⟩, ⟨.retire, 2, key 3 4 121, .guarded, some 120, none⟩]

/-- That pair after a RETIRE that verified on the first slot and failed on the second (R10). -/
def halfRetired : State :=
  after (.proposalItemCompletion (.failed .old .old)) (after (.slotWriteCompletion .verified)
    { start with writer := some (.proposal 3 23 retirePlans []) })

/-- R10: both entries stay, DAMAGED, and the first slot is freed, in the array too. -/
theorem test_half_retired :
    (halfRetired.slots.map fun e => (e.1, e.2.body.isSome)) =
      [(0, true), (1, false), (2, false), (3, false), (4, true)] ∧
    halfRetired.freed = [1] ∧ (halfRetired.array.slot 1).header = .free := by decide +kernel

/-- R10: a SET of both leaves both DAMAGED, though the second slot verifies; where no slot was freed, a pair of which
one entry fails keeps the other as it verified (R84). -/
theorem test_set_of_freed_pair :
    (tableResults halfRetired.freed
      [(⟨.set, 1, key 3 4 120, .guarded, some 121, none⟩, false),
       (⟨.set, 2, key 3 4 121, .guarded, some 120, none⟩, true)]).map Prod.snd = [false, false] ∧
    (tableResults start.freed
      [(⟨.set, 1, key 3 4 120, .guarded, some 121, none⟩, false),
       (⟨.set, 2, key 3 4 121, .guarded, some 120, none⟩, true)]).map Prod.snd = [false, true] := by decide +kernel

/-- Section 11.4: the pair interrupted between its slots. -/
def torn : SlotMap Entry :=
  [(1, ⟨key 3 4 120, .guarded, some 121, some ⟨3305, some 3290, some 3330, 5, 5⟩⟩),
   (2, ⟨key 3 4 121, .guarded, some 120, some ⟨1860, none, some 2000, 20, 4⟩⟩)]

/-- Table 71: both partners DAMAGED by the scan, 2 start faults. -/
theorem test_partner_pass :
    (partnerPass torn).map (fun e => e.2.body) = [none, none] ∧ passFaults torn = 2 := by decide +kernel

/-- Table 14. -/
theorem test_terms :
    digestTerm 130 240 = 8520531 ∧ digestTerm 120 3310 = 7874371 ∧ digestTerm 121 1860 = 7935558 := by decide

/-- The queue's front command put there by hand, and a word that spells none. -/
theorem test_withFetchWord : State.withFetchWord start 8 0x10 = start := rfl

/-! ### Witnesses: the queue, the channel interface, the table -/

theorem witness_StepTakesFront : ({ start with pending := [.linkLoss] } : State).pending = .linkLoss :: [] := rfl

theorem witness_IdleStepCountsTimers : start.pending = [] := rfl

theorem witness_EveryCommandCompletes :
    requestParts (.lookup 0 (args [3])) = some (0, 0x10, args [3]) ∧
      ({ start with link := .lost } : State).canArrive 0 = false ∧
      (start.onChannel 0 fun c => { c with resetHeld := true }).canArrive 0 = false := by decide +kernel

theorem witness_ChannelChecks :
    (Instr.lookup 0 (args [3])).wf = true ∧ requestParts (.lookup 0 (args [3])) = some (0, 0x10, args [3]) ∧
      (State.reset.canArrive 0 = true ∧ State.reset.ready = false) ∧
      ((Instr.unknownRequest 0 0x55 (args [3])).wf = true ∧
        requestParts (.unknownRequest 0 0x55 (args [3])) = some (0, 0x55, args [3]) ∧
        start.canArrive 0 = true ∧ start.ready = true ∧ listedRequest 0x55 = none) ∧
      (listedRequest 0x54 = some (4, [.operator, .engineer, .quality]) ∧
        requestParts (.setOutputMode 0 (args [1, 0, 0, 0, 1])) = some (0, 0x54, args [1, 0, 0, 0, 1]) ∧
        unusedZero (args [1, 0, 0, 0, 1]) 4 = false ∧
        requestParts (.setOutputMode 0 (args [1, 0, 0, 1])) = some (0, 0x54, args [1, 0, 0, 1]) ∧
        unusedZero (args [1, 0, 0, 1]) 4 = true ∧
        start.role 0 ∉ [Role.operator, .engineer, .quality]) := by decide +kernel

/-- One byte past each range. -/
theorem witness_OutOfRangeArguments :
    (requestParts (.readStation 0 (args [33])) = some (0, 0x46, args [33]) ∧
      listedRequest 0x46 = some (1, everyRole) ∧ Passes 1 everyRole 0 (args [33]) start ∧
      argumentOut (args [33]) (.readStation 0 (args [33]))) ∧
    (Passes 3 [.engineer] 2 (args [32, 4, 251]) start ∧
      argumentOut (args [32, 4, 251]) (.enroll 2 (args [32, 4, 251])) ∧
      ¬ argumentOut (args [32, 4, 250]) (.enroll 2 (args [32, 4, 250]))) ∧
    (argumentOut (args (keyOf 32 15 1024)) (.lookup 0 (args (keyOf 32 15 1024))) ∧
      ¬ argumentOut (args (keyOf 32 15 1023)) (.lookup 0 (args (keyOf 32 15 1023)))) ∧
    argumentOut (args [3]) (.draftBounds 1 (args [3])) ∧ argumentOut (args [12]) (.draftBounds 1 (args [12])) ∧
    argumentOut (args ([3] ++ four 1000000)) (.signOn 0 (args ([3] ++ four 1000000))) := by
  unfold Passes argumentOut keyOut stationOut sectionOut; decide +kernel

theorem witness_LookupAnswers :
    (Passes 4 everyRole 0 (args (keyOf 3 4 130)) start ∧ keyArg (args (keyOf 3 4 130)) = some (key 3 4 130) ∧
      ((resolve start.slots (key 3 4 130)).bind Entry.body).isSome = true ∧
      entryAt start.slots (key 3 4 130) = none) ∧
    (Passes 4 everyRole 0 (args (keyOf 8 15 7)) start ∧ keyArg (args (keyOf 8 15 7)) = some (key 8 15 7) ∧
      (resolve start.slots (key 8 15 7)).map Entry.body = some none) ∧
    (Passes 4 everyRole 0 (args (keyOf 32 15 1023)) start ∧
      keyArg (args (keyOf 32 15 1023)) = some (key 32 15 1023) ∧ resolve start.slots (key 32 15 1023) = none) ∧
    (Passes 4 everyRole 0 (args (keyOf 3 4 120)) start ∧ keyArg (args (keyOf 3 4 120)) = some (key 3 4 120) ∧
      ((entryAt start.slots (key 3 4 120)).bind Entry.body).isSome = true) ∧
    (Passes 4 everyRole 0 (args (keyOf 8 0 7)) start ∧ keyArg (args (keyOf 8 0 7)) = some (key 8 0 7) ∧
      (entryAt start.slots (key 8 0 7)).map Entry.body = some none) := by
  unfold Passes; decide +kernel

/-- Keys of each kind of resolution: an override, a base behind no override, none, and a base asked for itself. -/
theorem witness_LookupAnswers_resolution :
    KeysUnique entries ∧
    (∃ e ∈ entries.map Prod.snd, e.key = key 3 4 120) ∧
    ((∀ e ∈ entries.map Prod.snd, e.key ≠ key 3 15 130) ∧ (key 3 15 130).format ≠ 0 ∧
      ∃ e ∈ entries.map Prod.snd, e.key = { key 3 15 130 with format := 0 }) ∧
    ((∀ e ∈ entries.map Prod.snd, e.key ≠ key 32 15 1023) ∧
      ∀ e ∈ entries.map Prod.snd, e.key ≠ { key 32 15 1023 with format := 0 }) ∧
    ((∀ e ∈ entries.map Prod.snd, e.key ≠ key 1 0 0) ∧ (key 1 0 0).format = 0) := by
  unfold KeysUnique; decide +kernel

theorem witness_LimitsAndDigestReadings :
    (Passes 5 everyRole 0 (args (keyOf 3 4 130 ++ [2])) start ∧
      keyArg (args (keyOf 3 4 130 ++ [2])) = some (key 3 4 130) ∧
      1 < (argByte (args (keyOf 3 4 130 ++ [2])) 4).toNat) ∧
    (Passes 5 everyRole 0 (args (keyOf 3 4 130 ++ [1])) start ∧
      keyArg (args (keyOf 3 4 130 ++ [1])) = some (key 3 4 130) ∧
      argByte (args (keyOf 3 4 130 ++ [1])) 4 = 1 ∧ argByte (args (keyOf 3 4 130)) 4 = 0 ∧
      ((resolve start.slots (key 3 4 130)).bind Entry.body).isSome = true) ∧
    (keyArg (args (keyOf 8 1 7)) = some (key 8 1 7) ∧
      (resolve start.slots (key 8 1 7)).map Entry.body = some none) ∧
    (keyArg (args (keyOf 1 0 0 ++ [1])) = some (key 1 0 0) ∧ resolve start.slots (key 1 0 0) = none ∧
      (argByte (args (keyOf 1 0 0 ++ [1])) 4).toNat ≤ 1) ∧
    (Passes 2 everyRole 0 (args [32, 15]) start ∧ stationOf (argByte (args [32, 15]) 0).toNat = some 31 ∧
      productFormatOf (argByte (args [32, 15]) 1).toNat = some 15) ∧
    (Passes 2 everyRole 0 (args [32, 16]) start ∧ 15 < (argByte (args [32, 16]) 1).toNat ∧
      32 < (argByte (args [33, 1]) 0).toNat ∧ argByte (args [0, 1]) 0 = 0 ∧ argByte (args [1, 0]) 1 = 0) := by
  unfold Passes; decide +kernel

/-- The body of 3/0/130: low 200, high 280, value 240, tolerance 2. -/
theorem witness_CheckValueSteps :
    (Passes 8 everyRole 0 (args (keyOf 3 4 130 ++ four 199)) start ∧
      keyArg (args (keyOf 3 4 130 ++ four 199)) = some (key 3 4 130) ∧
      (resolve start.slots (key 3 4 130)).bind Entry.body = some ⟨240, some 200, some 280, 2, 5⟩) ∧
    (argWord (args (keyOf 3 4 130 ++ four 199)) 4).toInt < (200 : Word).toInt ∧
    ((200 : Word).toInt ≤ (argWord (args (keyOf 3 4 130 ++ four 281)) 4).toInt ∧
      (280 : Word).toInt < (argWord (args (keyOf 3 4 130 ++ four 281)) 4).toInt) ∧
    ((argWord (args (keyOf 3 4 130 ++ four 280)) 4).toInt ≤ (280 : Word).toInt ∧
      (2 : Half).toNat < ((argWord (args (keyOf 3 4 130 ++ four 243)) 4).toInt - (240 : Word).toInt).natAbs) ∧
    ((argWord (args (keyOf 3 4 130 ++ four 242)) 4).toInt - (240 : Word).toInt).natAbs ≤ (2 : Half).toNat ∧
    ((resolve start.slots (key 8 3 7)).map Entry.body = some none ∧
      keyArg (args (keyOf 8 3 7)) = some (key 8 3 7)) ∧
    (resolve start.slots (key 8 3 8) = none ∧ keyArg (args (keyOf 8 3 8)) = some (key 8 3 8)) := by
  unfold Passes; decide +kernel

theorem witness_EntryWalk :
    (Passes 2 everyRole 0 (args [8, 0xFF]) start ∧ stationFilterOf (argByte (args [8, 0xFF]) 0).toNat = some (some 7) ∧
      formatFilterOf (argByte (args [8, 0xFF]) 1).toNat = some none ∧
      (key 8 0 7).passes (some 7) none = true ∧
      (∀ x ∈ start.slots, x.2.key.passes (some 7) none = true →
        x.2 = ⟨key 8 0 7, .guarded, none, none⟩ ∨ (key 8 0 7).rank < x.2.key.rank)) ∧
    (∀ x ∈ start.slots, x.2.key.passes (some 31) none = false) ∧
    (Passes 0 everyRole 0 (args []) (start.setCursor 0 (.entries none none (some (key 8 0 7)))) ∧
      (key 8 0 7).rank < (key 8 0 9).rank) ∧
    (sel (start.setCursor 0 (.entries none none (some (key 8 0 9)))).channels 0).cursor =
      .entries none none (some (key 8 0 9)) ∧
    (∀ x ∈ start.slots, x.2.key.rank ≤ (key 8 0 9).rank) ∧
    ((sel (start.setCursor 0 (.entries (some 7) none none)).channels 0).cursor = .entries (some 7) none none ∧
      Passes 0 everyRole 0 (args []) (start.setCursor 0 (.entries (some 7) none none))) ∧
    (sel start.channels 0).cursor = .noCursor ∧
    (sel (start.setCursor 0 (.proposals none)).channels 0).cursor = .proposals none := by
  unfold Passes; decide +kernel

theorem witness_ExpectedPairIsSum : KeysUnique entries := by unfold KeysUnique; decide +kernel

/-- Proposal 22's item with the digest table of the whole table. -/
def rebuilt22 : State := { writing22 with digests := rebuildDigests entries }

theorem witness_CompletionKeepsDigests :
    rebuilt22.writer = some (.proposal 2 22
      [⟨.set, 0, key 3 0 130, .tunable, none, some ⟨246, some 200, some 280, 2, 6⟩⟩] []) ∧
      workingWf rebuilt22.slots = true ∧ KeysUnique rebuilt22.slots ∧ DigestLaw rebuilt22 ∧
      (∀ x ∈ rebuilt22.slots, x.1 = 0 ↔ x.2.key = key 3 0 130) := by
  refine ⟨rfl, by decide +kernel, witness_ExpectedPairIsSum, rfl, by decide +kernel⟩

/-! ### Witnesses: drafts and proposals -/

theorem witness_DraftBeginDiscard : Passes 0 [.operator, .engineer] 1 (args []) start := by
  unfold Passes; decide +kernel

theorem witness_DraftAdds :
    (Passes 10 [.operator, .engineer] 1 (args (keyOf 3 0 130 ++ two 5 ++ four 246)) start ∧
      keyArg (args (keyOf 3 0 130 ++ two 5 ++ four 246)) = some (key 3 0 130) ∧ start.draft 1 = none) ∧
    (Passes 9 [.operator, .engineer] 2 (args (keyOf 32 15 1023 ++ four 1 ++ [2])) start ∧
      classOf (argByte (args (keyOf 32 15 1023 ++ four 1 ++ [2])) 8).toNat = some .fixed) ∧
    Passes 6 [.operator, .engineer] 2 (args (keyOf 8 0 9 ++ two 65535)) start ∧
    ((start.setDraft 2 (some fill)).draft 2 = some fill ∧ fill.length = 2) ∧
    ((start.setDraft 1 (some [trim])).draft 1 = some [trim] ∧ key 3 0 130 ∈ keysOf [trim] ∧
      key 8 0 9 ∉ keysOf [trim]) := by
  unfold Passes; decide +kernel

theorem witness_DraftAmends :
    (Passes 9 [.operator, .engineer] 2 (args ([10] ++ four 3290 ++ four 3330)) (start.setDraft 2 (some fill)) ∧
      boundOf ((argByte (args ([10] ++ four 3290 ++ four 3330)) 0).toNat % 4)
        (argWord (args ([10] ++ four 3290 ++ four 3330)) 1) = some (.value 3290) ∧
      boundOf ((argByte (args ([10] ++ four 3290 ++ four 3330)) 0).toNat / 4)
        (argWord (args ([10] ++ four 3290 ++ four 3330)) 5) = some (.value 3330)) ∧
    Passes 2 [.operator, .engineer] 2 (args [5]) (start.setDraft 2 (some [])) ∧
    ((start.setDraft 2 (some fill)).draft 2 = some (fill.take 1 ++
      [Change.set (key 3 4 121) 3 1860 .unchanged .unchanged none])) ∧
    paramOf (argHalf (args (two 1023)) 0).toNat = some 1023 ∧
    ((start.setDraft 2 (some [Change.create (key 9 0 1) 1 .unchanged .unchanged none .tunable none])).draft 2 =
      some ([] ++ [Change.create (key 9 0 1) 1 .unchanged .unchanged none .tunable none])) ∧
    ((start.setDraft 2 (some [Change.retire (key 8 0 9) 1])).draft 2 = some ([] ++ [Change.retire (key 8 0 9) 1])) := by
  unfold Passes; decide +kernel

theorem witness_DraftSubmission :
    (start.draft 1 = none ∧ (start.setDraft 1 (some [])).draft 1 = some []) ∧
    ((start.setDraft 1 (some fill)).role 1 = .operator ∧ classAt start.slots (fill.headD trim) ≠ some .tunable) ∧
    ((start.setDraft 2 (some [Change.retire (key 8 0 9) 65535])).role 2 = .engineer ∧
      classAt start.slots (Change.retire (key 8 0 9) 65535) = some .fixed ∧ start.release = none) ∧
    submissionChecks start .engineer (fill.take 1) = some (.now .partnerRequired [0]) ∧
    (Passes 0 [.operator, .engineer] 2 (args []) (start.setDraft 2 (some fill)) ∧
      submissionChecks start .engineer fill = none) := by
  unfold Passes; decide +kernel

/-- Each approver; and a number passed over because a proposal holds it, past 255. -/
theorem witness_DraftSubmission_number :
    (∀ c ∈ [trim], c.valueOnly = true ∧ classAt entries c = some .tunable) ∧
    (∃ c ∈ fill, ¬ (c.valueOnly = true ∧ classAt entries c = some .tunable)) ∧
    (start.lastNumber = 21 ∧ ∀ p ∈ start.proposals, p.number ≠ (start.lastNumber + 0) % 255 + 1) ∧
    ((∃ p ∈ [{ proposal22 with number := 1 }], p.number = (255 + 0) % 255 + 1) ∧
      ∀ p ∈ [{ proposal22 with number := 1 }], p.number ≠ (255 + 1) % 255 + 1) := by decide +kernel

/-- Drafts that pass: SETs of ACTIVE partners, a repair of a DAMAGED entry, a CREATE pair, and with the release open a
SET of a FIXED entry. -/
def repair : Change := .set (key 8 0 7) 0 5 .remove (.value 9) (some 2)

/-- Two new partners. -/
def pair : List Change :=
  [.create (key 9 1 0) 5 (.value 5) .remove (some 1) .guarded (some 1023),
   .create (key 9 1 1023) 7 .unchanged (.value 7) none .fixed (some 0)]

/-- Chapter 11 with the fixed-class release open. -/
def released : State := { start with release := some 60000 }

theorem witness_SubmittedChangesInOrder :
    submissionChecks start .engineer fill = none ∧ submissionChecks start .engineer [repair] = none ∧
    damagedAt start.slots repair.key = true ∧ submissionChecks released .engineer pair = none ∧
    submissionChecks released .engineer [.set (key 8 0 9) 65535 11 .unchanged .unchanged none] = none ∧
    classAt released.slots (.set (key 8 0 9) 65535 11 .unchanged .unchanged none) = some .fixed := by decide +kernel

theorem noProposals : ProposalLaw start := by unfold ProposalLaw; decide +kernel

/-- A draft whose one fault is the partner it leaves out. -/
theorem witness_SubmittedChangesInOrder_fault :
    ProposalLaw start ∧ (keysOf (fill.take 1)).Nodup ∧
    SubmitFault start .engineer (fill.take 1) 5 0 (fill.headD trim) .partnerRequired [byteOf 0] ∧
    (start.submitRoom = 2043 ∧ createCount pair = 2 ∧ start.proposals.length < 16) ∧
    16 ≤ (List.replicate 16 proposal22).length := by
  refine ⟨noProposals, by decide +kernel, ?_, by decide +kernel, by decide +kernel⟩
  exact .alone 0 _ 121 (by decide +kernel) (by decide +kernel) (by decide +kernel)

/-- A table so full that a submission has no room for one more CREATE. -/
theorem witness_SubmittedChangesInOrder_full :
    ({ start with
      slots := (List.range 2048).map fun n => (n, ⟨key 1 0 0, .tunable, none, none⟩) } : State).submitRoom <
      createCount pair := by decide +kernel

/-- The fault of each check of Table 19, at the edge of what passes. -/
theorem witness_SubmitFault_checks (s : State) (hs : s = start) :
    SubmitFault s .operator fill 2 0 (fill.headD trim) .denied [1, 0, byteOf 0] ∧
    SubmitFault s .engineer [] 2 0 (.retire (key 8 0 9) 65535) .releaseClosed [byteOf 0] ∧
    SubmitFault s .engineer [] 3 0 (.retire (key 9 0 1) 0) .noEntry [byteOf 0] ∧
    SubmitFault s .engineer [] 3 1 (.create (key 8 0 7) 1 .unchanged .unchanged none .tunable none) .exists [byteOf 1] ∧
    SubmitFault s .engineer [] 4 0 (.retire (key 8 0 9) 65534) .revisionMismatch
      (byteOf 0 :: halfBytes (revisionAt s.slots (key 8 0 9))) ∧
    SubmitFault s .engineer (pair.take 1) 5 0 (pair.headD trim) .partnerInvalid [byteOf 0] ∧
    SubmitFault s .engineer [] 6 0 (.set (key 3 0 130) 5 246 (.value 281) .unchanged none) .boundsInvalid [byteOf 0] ∧
    SubmitFault s .engineer [] 6 0 (.set (key 3 0 130) 5 281 .unchanged .unchanged none) .outOfBounds [byteOf 0] ∧
    SubmitFault s .engineer [] 7 0 (.set (key 8 0 7) 0 5 .remove .unchanged (some 2)) .badArgument [byteOf 0] := by
  subst hs
  refine ⟨.denied 0 _ rfl (by decide +kernel), .closed 0 _ (by decide) (by decide +kernel) rfl,
    .absent 0 _ (by decide) (by decide +kernel), ?_, .revision 0 _ 65534 rfl (by decide +kernel),
    .unpaired 0 _ 1023 rfl rfl (by decide +kernel), .bounds 0 _ 281 280 246 (by decide +kernel) (by decide),
    .outside 0 _ (some 200) (some 280) 281 (by decide +kernel) ?_ (.inr ⟨280, rfl, by decide⟩), ?_⟩
  · exact .present 1 _ ⟨key 8 0 7, .guarded, none, none⟩ rfl (by decide +kernel)
  · intro lo hi h h'
    cases h; cases h'; decide
  · exact .repair 0 _ _ _ _ _ _ ⟨key 8 0 7, .guarded, none, none⟩ (by decide +kernel) rfl (.inr (.inl rfl))

/-- Chapter 11 with proposal 22 AWAITING. -/
def open22 : State := { start with proposals := [proposal22] }

theorem witness_ApproveAccepted :
    Passes 1 [.engineer, .quality] 2 (args [22]) open22 ∧ (argByte (args [22]) 0).toNat ≠ 0 ∧
      open22.proposal (argByte (args [22]) 0).toNat = some proposal22 ∧ proposal22.isWriting = false ∧
      proposal22.required = .engineerOrQuality ∧ 2 ≠ proposal22.proposer ∧
      (∀ c ∈ proposal22.changes, classAt open22.slots c ≠ some .fixed) ∧ open22.degraded = false ∧
      createCount proposal22.changes ≤ open22.approvalRoom ∧ WriteItem.proposal 2 22 ∉ open22.queue := by
  unfold Passes; decide +kernel

theorem witness_ApproveRefusals :
    Passes 1 [.engineer, .quality] 2 (args [0]) open22 ∧ argByte (args [0]) 0 = 0 ∧
    Passes 1 [.engineer, .quality] 2 (args [255]) open22 ∧ open22.proposal (argByte (args [255]) 0).toNat = none ∧
    writing22.proposal 22 = some { proposal22 with state := .writing 2 } ∧
    (∀ p, ({ open22 with proposals := [p] } : State).proposal p.number = some p) ∧
    (Change.retire (key 8 0 9) 1).kind = .retire ∧
    classAt open22.slots (Change.retire (key 8 0 9) 1) = some .fixed ∧
    ({ open22 with degraded := true } : State).proposal 22 = some proposal22 ∧
    (classAt open22.slots trim ≠ some .fixed ∧ open22.release = none) := by
  unfold Passes
  refine ⟨by decide +kernel, by decide +kernel, by decide +kernel, by decide +kernel, by decide +kernel, ?_,
    by decide +kernel, by decide +kernel, by decide +kernel, by decide +kernel⟩
  intro p
  simp [State.proposal]

/-- A table so full that an approval has no room for one more CREATE. -/
theorem witness_ApproveRefusals_full :
    ({ open22 with
      slots := (List.range 2048).map fun n => (n, ⟨key 1 0 0, .tunable, none, none⟩) } : State).approvalRoom <
      createCount [Change.create (key 9 0 1) 1 .unchanged .unchanged none .tunable none] := by decide +kernel

theorem witness_ProposalRemovals :
    argByte (args [22]) 0 ≠ 0 ∧ argByte (args [255]) 0 ≠ 0 ∧
    (Passes 1 [.engineer, .quality] 2 (args [255]) open22 ∧ open22.proposal (argByte (args [255]) 0).toNat = none ∧
      Passes 1 [.operator, .engineer, .quality] 1 (args [255]) open22) ∧
    (Passes 1 [.engineer, .quality] 3 (args [22]) writing22 ∧
      writing22.proposal (argByte (args [22]) 0).toNat = some { proposal22 with state := .writing 2 } ∧
      Passes 1 [.operator, .engineer, .quality] 1 (args [22]) writing22) ∧
    (Passes 1 [.engineer, .quality] 2 (args [22]) open22 ∧
      open22.proposal (argByte (args [22]) 0).toNat = some proposal22 ∧ proposal22.isWriting = false ∧
      open22.role 2 = .engineer ∧ { proposal22 with required := .qualityOnly }.required = .qualityOnly ∧
      proposal22.required = .engineerOrQuality) ∧
    (Passes 1 [.operator, .engineer, .quality] 1 (args [22]) open22 ∧ (1 : ChannelNo) = proposal22.proposer ∧
      Passes 1 [.operator, .engineer, .quality] 2 (args [22]) open22 ∧ (2 : ChannelNo) ≠ proposal22.proposer ∧
      open22.role 2 ≠ .quality) ∧
    open22.proposal proposal22.number = some proposal22 := by
  unfold Passes; decide +kernel

/-- Expiry timers on both sides of due, and a proposal that is WRITING. -/
theorem witness_ProposalRemovals_expiry :
    ({ start with proposals := [{ proposal22 with state := .awaiting 10 }] } : State).proposal 22 =
      some { proposal22 with state := .awaiting 10 } ∧
    (open22.proposal 22 = some proposal22 ∧ proposal22.state = .awaiting 900000) ∧ start.proposal 22 = none ∧
    writing22.proposal 22 = some { proposal22 with state := .writing 2 } := by decide +kernel

/-- A proposal with each kind of change. -/
def kinds : List Change :=
  [Change.create (key 9 0 1) 7 (.value 1) .remove (some 3) .fixed (some 2), Change.retire (key 8 0 9) 65535]

theorem witness_ProposalReadings :
    Passes 0 everyRole 0 (args []) start ∧ start.proposals = [] ∧ open22.proposals = proposal22 :: [] ∧
    ((sel (open22.setCursor 0 (.proposals (some 39))).channels 0).cursor = .proposals (some 39) ∧
      open22.proposals = [] ++ proposal22 :: [] ∧ 39 < proposal22.stamp) ∧
    ((sel (open22.setCursor 0 (.proposals (some 40))).channels 0).cursor = .proposals (some 40) ∧
      ∀ q ∈ open22.proposals, q.stamp ≤ 40) ∧
    ((sel (open22.setCursor 0 (.proposals none)).channels 0).cursor = .proposals none ∧
      (sel (start.setCursor 0 (.proposals none)).channels 0).cursor = .proposals none) ∧
    (Passes 3 everyRole 0 (args [22, 1, 3]) open22 ∧ open22.proposal 22 = some proposal22 ∧
      argByte (args [22, 1, 3]) 1 = 1 ∧ proposal22.changes.length ≤ 1) ∧
    (Passes 3 everyRole 0 (args [22, 0, 3]) open22 ∧ argByte (args [22, 0, 3]) 2 = 3 ∧
      proposal22.changes[(argByte (args [22, 0, 3]) 1).toNat]? = some trim) ∧
    (Passes 3 everyRole 0 (args [255, 1, 3]) open22 ∧ open22.proposal (argByte (args [255, 1, 3]) 0).toNat = none) ∧
    ({ proposal22 with changes := kinds }.changes[1]? = some (Change.retire (key 8 0 9) 65535) ∧
      { proposal22 with changes := kinds }.changes[0]? =
        some (Change.create (key 9 0 1) 7 (.value 1) .remove (some 3) .fixed (some 2))) := by
  unfold Passes; decide +kernel

theorem witness_ProposalReadings_noCursor : ∀ last, (sel start.channels 0).cursor ≠ .proposals last := by
  intro last; rw [show (sel start.channels 0).cursor = .noCursor from by decide +kernel]; simp

/-! ### Witnesses: the write queue and the store writer -/

theorem witness_ModuleRecordSettings :
    (Passes 2 [.quality] 3 (args (two 60)) start ∧ (argHalf (args (two 60)) 0).toNat = 60 ∧
      (argHalf (args (two 3600)) 0).toNat = 3600 ∧ (argHalf (args (two 59)) 0).toNat < 60 ∧
      3600 < (argHalf (args (two 3601)) 0).toNat) ∧
    (Passes 5 [.quality] 3 (args ([1] ++ four 0xFFFFFFFF)) start ∧
      argWord (args ([1] ++ four 0xFFFFFFFF)) 1 = 0xFFFFFFFF ∧
      (argWord (args ([3] ++ four 999999)) 1).toNat = 999999 ∧ argByte (args ([3] ++ four 999999)) 0 = 3 ∧
      999999 < (argWord (args ([2] ++ four 1000000)) 1).toNat) := by
  unfold Passes; decide +kernel

theorem witness_WriterOrder :
    WriteItem.moduleRec ∈ ({ start with queue := [.moduleRec] } : State).queue ∧
    (WriteItem.sect 1 ∉ start.queue ∧ writing22.writer ≠ none) ∧ (start.writer = none ∧ start.queue = []) ∧
    (∀ j ∈ [WriteItem.station 31, .sect 1], j = .sect 1 ∨ itemRank [] (.sect 1) < itemRank [] j) ∧
    (open22.proposal proposal22.number = some proposal22 ∧
      planSlots open22.slots proposal22.changes (open22.slots.map Prod.fst) proposal22.changes =
        some [⟨.set, 0, key 3 0 130, .tunable, none, some ⟨246, some 200, some 280, 2, 6⟩⟩]) ∧
    (([proposal22, { proposal22 with number := 1, stamp := 41 }].map Proposal.number).Nodup ∧
      proposal22.stamp < 41) := by
  decide +kernel

/-- The two slot writes of section 11.2. -/
def fillPlans : List SlotPlan :=
  [⟨.set, 1, key 3 4 120, .guarded, some 121, some ⟨3310, some 3290, some 3330, 5, 4⟩⟩,
   ⟨.set, 2, key 3 4 121, .guarded, some 120, some ⟨1860, none, some 2000, 20, 4⟩⟩]

theorem witness_WriteCompletions :
    ({ start with writer := some (.moduleRec .delivery) } : State).writer = some (.moduleRec .delivery) ∧
    ({ start with writer := some (.sect 3 .delivery) } : State).writer = some (.sect 3 .delivery) ∧
    ({ start with writer := some (.station 31 .delivery) } : State).writer = some (.station 31 .delivery) ∧
    ({ start with writer := some (.proposal 3 23 fillPlans []) } : State).writer =
      some (.proposal 3 23 fillPlans []) ∧ fillPlans.map SlotPlan.kind = [.set, .set] := by decide +kernel

/-- The writes of a CREATE and of a RETIRE. -/
theorem witness_WriteCompletions_kinds :
    (⟨.create, 2047, key 9 0 1, .fixed, none, some ⟨7, none, none, 0, 1⟩⟩ : SlotPlan).kind = .create ∧
    (⟨.retire, 4, key 8 0 9, .fixed, none, none⟩ : SlotPlan).kind = .retire := by decide

/-- The re-judged stations of a completion, by the statement's own rule. -/
def judgedBy (s : State) (all : List SlotResult) (m : SlotMap Entry) (st : StationNo) : StationRec :=
  if (sel s.stations st).persist.enrolled = true ∧ (sel s.stations st).holder = none then
    (((all.map fun d => (d.1.key.station, d.1.key.param)).dedup).filter fun x =>
      decide (x.1 = st) && all.any fun d => decide (d.1.key.station = st ∧ d.1.key.param = x.2 ∧
        (d.1.key.format = (sel s.stations st).persist.format ∨
          (d.1.key.format = 0 ∧ entryAt s.slots ⟨st, (sel s.stations st).persist.format, x.2⟩ = none)))).foldl
      (fun r x => rejudgeRec x.2 (resolutionOf (resolve s.slots ⟨st, (sel s.stations st).persist.format, x.2⟩))
        (resolve m ⟨st, (sel s.stations st).persist.format, x.2⟩) r)
      (sel s.stations st)
  else sel s.stations st

theorem witness_ItemCompletion :
    (sel writing22.channels 2).handshake = .working true ⟨0x30, args [22]⟩ ∧
    (sel (writing22.onChannel 2 Channel.abandon).channels 2).handshake = .working false ⟨0x30, args [22]⟩ ∧
    [true].length + 1 = fillPlans.length ∧ fillPlans[[true].length]? = fillPlans.getLast? ∧
    (writeSlotPlan (fillPlans.getLast (by decide)) .verified start.array).2 = true ∧
    (writeSlotPlan (fillPlans.getLast (by decide)) (.failed .old .torn) start.array).2 = false ∧
    (∀ d ∈ fillPlans.zip [true, true], d.2 = true) ∧ (∃ d ∈ fillPlans.zip [true, false], d.2 = false) := by
  decide +kernel

/-- Stations that meet the statement's rule, for any completion. -/
theorem witness_ItemCompletion_judged (s : State) (all : List SlotResult) (m : SlotMap Entry) :
    ∃ judged : Bank 32 StationRec, ∀ st, sel judged st = judgedBy s all m st :=
  ⟨Vector.ofFn (judgedBy s all m), fun st => by simp [sel]⟩

theorem witness_SlotResultsApplied :
    workingWf entries = true ∧
    (∃ p : SlotPlan, p.slot = 2047 ∧ p.kind = .create) ∧ (∃ p : SlotPlan, p.slot = 4 ∧ p.kind = .retire ∧ p.partner = none) ∧
    (∃ p q : SlotPlan, p.slot = 1 ∧ q.slot = 2 ∧ p.kind = .retire ∧ q.kind = .retire ∧
      q.key = { p.key with param := q.key.param } ∧ p.partner = some q.key.param ∧
      q.partner = some p.key.param) :=
  ⟨by decide +kernel, ⟨⟨.create, 2047, key 9 0 1, .fixed, none, none⟩, by decide⟩,
    ⟨⟨.retire, 4, key 8 0 9, .fixed, none, none⟩, by decide⟩,
    ⟨⟨.retire, 1, key 3 4 120, .guarded, some 121, none⟩, ⟨.retire, 2, key 3 4 121, .guarded, some 120, none⟩,
      by decide⟩⟩

/-- A pair of SETs one of whose slots was freed, an unrelated pair of slot writes, and a pair of CREATEs. -/
theorem witness_SlotResultsApplied_freed :
    fillPlans.map SlotPlan.slot = [1, 2] ∧ 1 ∈ halfRetired.freed ∧ 1 ∉ start.freed ∧ 2 ∉ start.freed ∧
    key 3 4 121 = { key 3 4 120 with param := 121 } ∧
    ¬ (key 8 0 9 = { key 3 4 120 with param := (key 8 0 9).param }) ∧
    (⟨.create, 2047, key 9 0 1, .fixed, some 2, none⟩ : SlotPlan).kind ≠ .retire := by decide +kernel

theorem witness_PlannedBodies :
    ((findEntry entries (key 8 0 9)).map fun x => (x.1, x.2.partner, x.2.body)) =
      some (4, none, some ⟨10, none, none, 0, 65535⟩) ∧
    ((findEntry entries (key 8 0 7)).map fun x => (x.1, x.2.partner, x.2.body)) = some (3, none, none) ∧
    ((fill.map Change.kind = [.set, .set]) ∧
      (entryAt entries (key 3 4 120)).bind Entry.partner = some 121 ∧
      (entryAt entries (key 3 4 121)).bind Entry.partner = some 120 ∧ key 3 4 120 ≠ key 3 4 121) ∧
    (5 ∉ entries.map Prod.fst ∧ ∀ j < 5, j ∈ entries.map Prod.fst) := by decide +kernel

/-- The two lowest free slots, and the pair of section 11.2. -/
theorem witness_PlannedBodies_pairs :
    (5 < 6 ∧ 6 ∉ entries.map Prod.fst ∧ ∀ j < 6, j ≠ 5 → j ∈ entries.map Prod.fst) ∧
    ((findEntry entries (key 3 4 120)).map fun x => (x.1, x.2.partner)) = some (1, some 121) ∧
    ((findEntry entries (key 3 4 121)).map fun x => (x.1, x.2.partner)) = some (2, some 120) ∧
    key 3 4 121 = { key 3 4 120 with param := (key 3 4 121).param } := by decide +kernel

/-! ### Witnesses: stations -/

theorem witness_DerivedStateOrder :
    (StationRec.idle .delivery).persist.enrolled = false ∧ filler.persist.enrolled = true ∧
    ({ filler with holder := some 3, stale := true } : StationRec).holder = some 3 ∧
    ({ filler with stale := true, overflow := true } : StationRec).stale = true ∧
    ({ filler with overflow := true } : StationRec).overflow = true ∧
    ({ filler with digestSeen := false } : StationRec).digestSeen = false ∧ filler.digestSeen = true := by
  decide

theorem witness_Enrolment :
    (Passes 3 [.engineer] 2 (args [3, 2, 1]) start ∧ stationOf (argByte (args [3, 2, 1]) 0).toNat = some 2 ∧
      sectionOf (argByte (args [3, 2, 1]) 1).toNat = some 1 ∧ 1 ≤ (argByte (args [3, 2, 1]) 2).toNat ∧
      start.changing 1 = false ∧ (sel start.stations 2).persist.enrolled = true ∧
      start.changing (sel start.stations 2).persist.sect = false) ∧
    (Passes 3 [.engineer] 2 (args [32, 2, 250]) changing2 ∧ (argByte (args [32, 2, 250]) 2).toNat ≤ 250 ∧
      changing2.changing 1 = true) ∧
    (Passes 1 [.engineer] 2 (args [32]) start ∧ stationOf (argByte (args [32]) 0).toNat = some 31 ∧
      (sel start.stations 31).persist.enrolled = false) ∧
    (Passes 1 [.engineer] 2 (args [6]) changing2 ∧ (sel changing2.stations 5).persist.enrolled = true ∧
      changing2.changing (sel changing2.stations 5).persist.sect = true) ∧
    Passes 1 [.engineer] 2 (args [3]) start := by
  unfold Passes; decide +kernel

theorem witness_ReportValueJudged :
    (Passes 7 everyRole 0 (args ([3] ++ two 130 ++ four 246)) start ∧
      stationOf (argByte (args ([3] ++ two 130 ++ four 246)) 0).toNat = some 2 ∧
      paramOf (argHalf (args ([3] ++ two 130 ++ four 246)) 1).toNat = some 130) ∧
    (sel start.stations 31).persist.enrolled = false ∧
    ((sel changing2.stations 5).persist.enrolled = true ∧ (sel changing2.stations 5).holder ≠ none) ∧
    ((sel start.stations 2).holder = none ∧ resolve start.slots (key 3 4 1023) = none) ∧
    (resolve start.slots (key 3 4 130)).bind Entry.body = some ⟨240, some 200, some 280, 2, 5⟩ ∧
    (argWord (args ([3] ++ two 130 ++ four 199)) 3).toInt < (200 : Word).toInt ∧
    (280 : Word).toInt < (argWord (args ([3] ++ two 130 ++ four 281)) 3).toInt ∧
    2 < ((argWord (args ([3] ++ two 130 ++ four 243)) 3).toInt - (240 : Word).toInt).natAbs ∧
    ((argWord (args ([3] ++ two 130 ++ four 242)) 3).toInt - (240 : Word).toInt).natAbs ≤ 2 := by
  unfold Passes; decide +kernel

/-- A DAMAGED entry that resolves for an enrolled station. -/
theorem witness_ReportValueJudged_damaged :
    (resolve ({ start with stations := upd start.stations 7 filler } : State).slots (key 8 4 7)).map Entry.body =
      some none := by decide +kernel

/-- A full divergence list, with its station-level record. -/
def fullList : List DivRecord :=
  [.param 130 .deviates (some 246), .param 7 .damaged none, .level .digestMismatch 4 24330418,
   .param 1 .unknownParameter (some 0), .param 2 .unknownParameter (some 0), .param 3 .unknownParameter (some 0)] ++
  [.param 4 .unknownParameter (some 0), .param 5 .unknownParameter (some 0)]

theorem witness_ListUpdates :
    (1023 ∉ paramsListed filler.list ∧ filler.list.length < 8) ∧
    (1023 ∉ paramsListed fullList ∧ 8 ≤ fullList.length) ∧
    (fullList = [] ++ .param 130 .deviates (some 246) :: fullList.tail ∧ 130 ∉ paramsListed fullList.tail) ∧
    (fullList = fullList.take 1 ++ .param 7 .damaged none :: fullList.drop 2 ∧
      7 ∉ paramsListed (fullList.take 1) ∧ 7 ∉ paramsListed (fullList.drop 2)) ∧
    (filler.list.any DivRecord.isLevel = false) ∧
    (fullList = fullList.take 2 ++ .level .digestMismatch 4 24330418 :: fullList.drop 3 ∧
      (fullList.take 2).any DivRecord.isLevel = false ∧ (fullList.drop 3).any DivRecord.isLevel = false) ∧
    (judgeBody ⟨240, some 200, some 280, 2, 5⟩ 242 = none ∧
      judgeBody ⟨240, some 200, some 280, 2, 5⟩ 243 = some .deviates) ∧
    (resolutionOf ((entries[3]?).map Prod.snd) = .damaged ∧ Resolution.none ≠ .damaged) := by decide +kernel

theorem witness_DigestReportActive :
    (Passes 8 everyRole 0 (args ([3, 4] ++ two 3 ++ four 24330400)) start ∧
      stationOf (argByte (args ([3, 4] ++ two 3 ++ four 24330400)) 0).toNat = some 2 ∧
      productFormatOf (argByte (args ([3, 4] ++ two 3 ++ four 24330400)) 1).toNat = some 4 ∧
      (argHalf (args ([3, 4] ++ two 3 ++ four 24330400)) 2).toNat ≤ 1024 ∧
      (sel start.stations 2).persist.enrolled = true ∧ (sel start.stations 2).holder = none ∧
      (4 : FormatNo) = (sel start.stations 2).persist.format ∧
      start.pairOf 2 4 = ⟨argWord (args ([3, 4] ++ two 3 ++ four 24330400)) 4,
        (argHalf (args ([3, 4] ++ two 3 ++ four 24330400)) 2).toNat⟩) ∧
    (Passes 8 everyRole 0 (args ([3, 4] ++ two 1024 ++ four 24330400)) start ∧
      (argHalf (args ([3, 4] ++ two 1024 ++ four 24330400)) 2).toNat = 1024 ∧
      start.pairOf 2 4 ≠ ⟨argWord (args ([3, 4] ++ two 1024 ++ four 24330400)) 4, 1024⟩) := by
  unfold Passes; decide +kernel

/-- Station 6 released before the expiry (section 11.3). -/
def adopting : State :=
  changing2.setStation 5 ⟨⟨true, 1, 5, 9⟩, none, some 1, false, true, true, [], false⟩

theorem witness_DigestReportOther :
    (Passes 8 everyRole 0 (args [6, 11]) adopting ∧ stationOf (argByte (args [6, 11]) 0).toNat = some 5 ∧
      productFormatOf (argByte (args [6, 11]) 1).toNat = some 11 ∧ (argHalf (args [6, 11]) 2).toNat ≤ 1024) ∧
    (sel adopting.stations 30).persist.enrolled = false ∧
    ((sel changing2.stations 5).persist.enrolled = true ∧ (sel changing2.stations 5).holder ≠ none) ∧
    ((sel adopting.stations 5).persist.enrolled = true ∧ (sel adopting.stations 5).holder = none ∧
      (11 : FormatNo) ≠ (sel adopting.stations 5).persist.format ∧ (sel adopting.stations 5).pending = true ∧
      adopting.changingTo (sel adopting.stations 5).persist.sect 11 = true ∧
      adopting.pairOf 5 11 = ⟨argWord (args [6, 11]) 4, (argHalf (args [6, 11]) 2).toNat⟩ ∧
      adopting.pairOf 5 11 ≠ ⟨argWord (args [6, 11, 1]) 4, (argHalf (args [6, 11, 1]) 2).toNat⟩) ∧
    ((15 : FormatNo) ≠ (sel adopting.stations 5).persist.format ∧
      adopting.changingTo (sel adopting.stations 5).persist.sect 15 = false) := by
  unfold Passes; decide +kernel

/-- Station 3 held by channel 4. -/
def held3 : State := start.setStation 2 { filler with holder := some 3, timer := none }

theorem witness_HoldsAndWindow :
    (Passes 1 [.operator, .engineer, .quality] 1 (args [32]) start ∧
      stationOf (argByte (args [32]) 0).toNat = some 31 ∧ (sel start.stations 31).persist.enrolled = false) ∧
    ((sel start.stations 2).persist.enrolled = true ∧ (sel start.stations 2).holder = none ∧
      (sel start.stations 2).timer = some 5000 ∧
      (sel (start.setStation 2 { filler with timer := some 10 }).stations 2).timer = some 10 ∧
      (sel start.stations 31).timer = none ∧ Passes 1 [.operator, .engineer, .quality] 1 (args [3]) start ∧
      stationOf (argByte (args [3]) 0).toNat = some 2) ∧
    ((sel held3.stations 2).persist.enrolled = true ∧ (sel held3.stations 2).holder = some 3 ∧
      Passes 1 [.operator, .engineer, .quality] 3 (args [3]) held3 ∧
      Passes 1 [.operator, .engineer, .quality] 1 (args [3]) held3 ∧ held3.role 1 = .operator ∧
      Passes 1 [.operator, .engineer, .quality] 2 (args [3]) held3 ∧ held3.role 2 ≠ .operator) := by
  unfold Passes; decide +kernel

theorem witness_StationReadings :
    (Passes 1 everyRole 0 (args [32]) start ∧ stationOf (argByte (args [32]) 0).toNat = some 31) ∧
    (Passes 2 everyRole 0 (args [3, 8]) start ∧ 7 < (argByte (args [3, 8]) 1).toNat) ∧
    (Passes 2 everyRole 0 (args [3, 7]) start ∧ (sel start.stations 2).list.length ≤ (argByte (args [3, 7]) 1).toNat) ∧
    ((sel (start.setStation 2 { filler with list := fullList }).stations 2).list[7]? =
        some (.param 5 .unknownParameter (some 0)) ∧
      (sel (start.setStation 2 { filler with list := fullList }).stations 2).list[2]? =
        some (.level .digestMismatch 4 24330418)) := by
  unfold Passes; decide +kernel

/-! ### Witnesses: sections and outputs -/

theorem witness_RecomputeRule :
    (start.changing 3 = false ∧ start.enrolledIn 3 = []) ∧
    (start.changing 0 = false ∧ start.enrolledIn 0 = [2] ∧ (sel start.stations 2).persist.format = 4 ∧
      (4 : FormatNo) = (sel start.sections 0).persist.format) ∧
    (4 ≠ (sel (start.setSectionRec 0 ⟨⟨9, 600⟩, .split⟩).sections 0).persist.format) ∧
    ((changing2.setSectionRec 1 ⟨⟨9, 600⟩, .split⟩).changing 1 = false ∧
      (4 : StationNo) ∈ changing2.enrolledIn 1 ∧ (5 : StationNo) ∈ changing2.enrolledIn 1 ∧
      (sel changing2.stations 4).persist.format ≠ (sel changing2.stations 5).persist.format) := by decide +kernel

theorem witness_ChangeoverBegins :
    (Passes 2 [.operator, .engineer] 1 (args [2, 15]) changing2 ∧ sectionOf (argByte (args [2, 15]) 0).toNat = some 1 ∧
      productFormatOf (argByte (args [2, 15]) 1).toNat = some 15 ∧ changing2.changing 1 = true) ∧
    (Passes 2 [.operator, .engineer] 1 (args [1, 4]) start ∧ (sel start.sections 0).state = .steady ∧
      (4 : FormatNo) = (sel start.sections 0).persist.format) ∧
    (Passes 2 [.operator, .engineer] 1 (args [1, 15]) start ∧ start.changing 0 = false ∧
      (start.enrolledIn 0).filter (fun st =>
        (sel start.stations st).pending || (sel start.stations st).persist.format != 15) = [2]) ∧
    (Passes 2 [.operator, .engineer] 1 (args [4, 15]) start ∧
      (start.enrolledIn 3).filter (fun st =>
        (sel start.stations st).pending || (sel start.stations st).persist.format != 15) = []) := by
  unfold Passes; decide +kernel

theorem witness_ChangeoverEnds :
    changing2.changing 1 = true ∧ Passes 1 [.operator, .engineer] 1 (args [2]) changing2 ∧
      sectionOf (argByte (args [2]) 0).toNat = some 1 ∧ start.changing 1 = false ∧
      Passes 1 [.operator, .engineer] 2 (args [2]) start ∧
    (sel changing2.sections 1).state = .changing 11 0 ∧
    (sel (changing2.setSectionRec 1 ⟨⟨9, 600⟩, .changing 11 11⟩).sections 1).state = .changing 11 11 ∧
    (5 ∈ changing2.enrolledIn 1 ∧ (sel changing2.stations 5).pending = true) ∧
    ((changing2.setStation 5 filler).changing 1 = true ∧
      ∀ st ∈ (changing2.setStation 5 filler).enrolledIn 1,
        (sel (changing2.setStation 5 filler).stations st).pending = false) := by
  unfold Passes; decide +kernel

theorem witness_SectionRequests :
    (Passes 3 [.engineer] 2 (args ([4] ++ two 30)) start ∧ sectionOf (argByte (args ([4] ++ two 30)) 0).toNat = some 3 ∧
      (argHalf (args ([4] ++ two 30)) 1).toNat = 30 ∧ start.changing 3 = false) ∧
    (Passes 3 [.engineer] 2 (args ([2] ++ two 3600)) changing2 ∧ (argHalf (args ([2] ++ two 3600)) 1).toNat = 3600 ∧
      changing2.changing 1 = true) ∧
    ((argHalf (args ([4] ++ two 29)) 1).toNat < 30 ∧ 3600 < (argHalf (args ([4] ++ two 3601)) 1).toNat) ∧
    Passes 1 everyRole 0 (args [2]) changing2 := by
  unfold Passes; decide +kernel

theorem witness_AutoConditionRule :
    (sel start.outputs 0).mode = .auto ∧ start.commandFormed 0 = true ∧
      ({ Output.fresh false with mode := .forcedOff } : Output).mode = .forcedOff ∧
      ({ Output.fresh false with mode := .bypass 0 } : Output).mode = .bypass 0 := by decide +kernel

theorem witness_EventsSettle :
    (start.commandFormed 0 = true ∧ held3.commandFormed 0 = false ∧ (sel held3.outputs 0).commanded = true) ∧
    (held3.commandFormed 0 = false ∧ start.commandFormed 0 = true) ∧
    (sel (formOutputs start held3).outputs 0).commanded = false ∧
    (sel start.channels 0).resetHeld = false ∧
    (sel (start.onChannel 0 fun c => { c with resetHeld := true }).channels 0).resetHeld = true := by decide +kernel

theorem witness_SetOutputModeRule :
    (Passes 4 [.operator, .engineer, .quality] 2 (args ([4, 2] ++ two 10)) start ∧
      sectionOf (argByte (args ([4, 2] ++ two 10)) 0).toNat = some 3 ∧ argByte (args ([4, 2] ++ two 10)) 1 = 2 ∧
      10 ≤ (argHalf (args ([4, 2] ++ two 10)) 2).toNat ∧ start.role 2 = .engineer) ∧
    (Passes 4 [.operator, .engineer, .quality] 1 (args ([4, 2] ++ two 1800)) start ∧
      (argHalf (args ([4, 2] ++ two 1800)) 2).toNat ≤ 1800 ∧ start.role 1 ≠ .engineer) ∧
    (2 < (argByte (args [4, 3]) 1).toNat ∧ (argHalf (args ([4, 2] ++ two 9)) 2).toNat < 10 ∧
      1800 < (argHalf (args ([4, 2] ++ two 1801)) 2).toNat) ∧
    (argByte (args [4, 1]) 1 = 1 ∧ argByte (args [4, 0]) 1 = 0) := by
  unfold Passes; decide +kernel

/-- Section 1's output ON, driven, and then tripped. -/
def driven1 : State := { start with fieldPresent := true }

theorem witness_OutputEvents :
    ({ Output.fresh false with mode := .bypass 10 } : Output).mode = .bypass 10 ∧ start.phase ≠ .off ∧
    ({ Output.fresh false with mode := .bypass 11 } : Output).mode = .bypass 11 ∧
    (sel start.outputs 0).mode = .auto ∧
    ({ Output.fresh false with faultDelay := some 0 } : Output).faultDelay = some 0 ∧
    ({ Output.fresh false with faultDelay := some 1 } : Output).faultDelay ≠ some 0 ∧
    ((sel driven1.outputs 0).commanded = true ∧ driven1.fieldPresent = true ∧
      (sel driven1.outputs 0).tripped = false) ∧
    (({ sel driven1.outputs 0 with tripped := true } : Output).tripped = true) ∧
    (start.fieldPresent = false ∧ (sel start.outputs 1).commanded = false ∧
      ({ start with phase := .off } : State).phase = .off) ∧
    (start.phase = .running ∧ start.link ≠ .lost ∧ start.degraded = false ∧ State.reset.phase = .scanning) := by
  decide +kernel

/-! ### Witnesses: access, the channel interface -/

theorem witness_SignOnRules :
    (Passes 5 everyRole 0 (args ([3] ++ four 999999)) start ∧
      roleOf (argByte (args ([3] ++ four 999999)) 0).toNat = some .quality ∧
      (argWord (args ([3] ++ four 999999)) 1).toNat = 999999) ∧
    ((sel (start.onChannel 0 fun c => { c with lockout := some 0 }).channels 0).lockout = some 0) ∧
    ((sel (start.onChannel 0 fun c => { c with lockout := some 10 }).channels 0).lockout = some 10) ∧
    ((sel (start.onChannel 0 fun c => { c with lockout := some 11 }).channels 0).lockout = some 11) ∧
    ((sel start.channels 0).lockout = none ∧ start.access.accepts .quality 0 = true ∧
      start.access.accepts .quality 999999 = false ∧ (sel start.channels 0).wrongCodes < 4) ∧
    (sel (start.onChannel 0 fun c => { c with wrongCodes := 4 }).channels 0).wrongCodes = 4 := by
  unfold Passes; decide +kernel

theorem witness_SignOffRule : Passes 0 everyRole 1 (args []) start := by unfold Passes; decide +kernel

theorem witness_ReleaseRules :
    (Passes 2 [.quality] 3 (args (two 60)) start ∧ (argHalf (args (two 60)) 0).toNat = 60 ∧
      (argHalf (args (two 900)) 0).toNat = 900 ∧ (argHalf (args (two 59)) 0).toNat < 60 ∧
      900 < (argHalf (args (two 901)) 0).toNat) ∧ Passes 0 [.quality] 3 (args []) start ∧
    released.release = some 60000 ∧ ({ start with release := some 10 } : State).release = some 10 ∧
    start.release = none := by
  unfold Passes; decide +kernel

theorem witness_InfoAndEvents :
    (Passes 1 everyRole 0 (args [1]) start ∧ argByte (args [1]) 0 = 1 ∧ argByte (args [0]) 0 = 0 ∧
      1 < (argByte (args [2]) 0).toNat ∧ 32 ≤ (argByte (args [32]) 0).toNat ∧
      (⟨true, true, true, true, true⟩ : EventSet).byte = argByte (args [31]) 0) ∧
    Passes 0 everyRole 0 (args []) start := by
  unfold Passes; decide +kernel

theorem witness_HandshakeRows :
    start.exchanging = true ∧ start.link ≠ .lost ∧ (sel start.channels 0).resetHeld = false ∧
      (sel start.channels 0).handshake = .idle ∧
      (sel (answered 0 .done [] start).channels 0).handshake = .answered ∧
      (sel writing22.channels 2).handshake = .working true ⟨0x30, args [22]⟩ ∧
      (sel (start.onChannel 0 fun c => { c with resetHeld := true }).channels 0).resetHeld = true ∧
      (sel (writing22.onChannel 2 fun c => { c with resetHeld := true }).channels 2).handshake ≠ .idle := by
  decide +kernel

/-- An output image in which channel 1 asks for READ_STATION 3. -/
def imageRead : OutputImage := Vector.ofFn fun i => BitVec.ofNat 8 ([1, 0x46, 3].getD i.val 0)

theorem witness_ExchangeOfImages :
    start.exchanging = true ∧
    (∀ ch, (controlByte (Vector.replicate 48 0) ch).getLsbD 0 = false ∧
      (controlByte (Vector.replicate 48 0) ch).getLsbD 1 = false) ∧
    ((Instr.readStation 0 (args [3])).wf = true ∧ (controlByte imageRead 0).getLsbD 0 = true ∧
      (controlByte imageRead 0).getLsbD 1 = false ∧
      (∀ ch : ChannelNo, ch ≠ 0 → (controlByte imageRead ch).getLsbD 0 = false ∧
        (controlByte imageRead ch).getLsbD 1 = false ∧ (sel start.channels ch).handshake = .idle ∧
        (sel start.channels ch).armed = true ∧ (sel start.channels ch).resetHeld = false) ∧
      requestParts (.readStation 0 (args [3])) = some (0, requestCode imageRead 0, requestArgs imageRead 0)) := by
  decide +kernel

/-- An image with RESET set on channel 1, REQ on channels 2 and 3, and channel 4 clear; its channels taken in turn. -/
def imageMixed : OutputImage := Vector.ofFn fun i => BitVec.ofNat 8
  (([2, 0, 0, 0, 0, 0, 0, 0, 0, 0, 0, 0] ++ [1, 0x46, 3, 0, 0, 0, 0, 0, 0, 0, 0, 0] ++
    [1, 0x55, 0, 0, 0, 0, 0, 0, 0, 0, 0, 0]).getD i.val 0)

theorem witness_ExchangeOfImages_mixed :
    (controlByte imageMixed 0).getLsbD 1 = true ∧ (sel start.channels 0).resetHeld = false ∧
    ((controlByte imageMixed 1).getLsbD 1 = false ∧ (controlByte imageMixed 1).getLsbD 0 = true ∧
      (sel start.channels 1).resetHeld = false ∧ (Instr.readStation 1 (args [3])).wf = true ∧
      requestParts (.readStation 1 (args [3])) = some (1, requestCode imageMixed 1, requestArgs imageMixed 1)) ∧
    ((controlByte imageMixed 2).getLsbD 0 = true ∧ (Instr.unknownRequest 2 0x55 (args [])).wf = true ∧
      requestParts (.unknownRequest 2 0x55 (args [])) = some (2, requestCode imageMixed 2, requestArgs imageMixed 2)) ∧
    ((controlByte imageMixed 3).getLsbD 1 = false ∧ (controlByte imageMixed 3).getLsbD 0 = false) := by
  decide +kernel

/-- The requests that channels 2 and 3 of that image ask for, and no other. -/
theorem mixed_second (c : Instr) (hw : c.wf = true)
    (h : requestParts c = some (1, requestCode imageMixed 1, requestArgs imageMixed 1)) :
    c = .readStation 1 (args [3]) := by
  rw [show requestCode imageMixed 1 = 0x46 from by decide +kernel,
    show requestArgs imageMixed 1 = args [3] from by decide +kernel] at h
  cases c <;> simp_all [requestParts, Instr.wf, knownCodes]

theorem mixed_third (c : Instr)
    (h : requestParts c = some (2, requestCode imageMixed 2, requestArgs imageMixed 2)) :
    c = .unknownRequest 2 0x55 (args []) := by
  rw [show requestCode imageMixed 2 = 0x55 from by decide +kernel,
    show requestArgs imageMixed 2 = args [] from by decide +kernel] at h
  cases c <;> simp_all [requestParts]

/-- The state before the control bytes are taken, and after each of the four. -/
def mixed0 : State := beginExchange start
def mixed1 : State := mixed0.onChannel 0 Channel.startReset
def mixed2 : State := after (.readStation 1 (args [3])) mixed1
def mixed3 : State := after (.unknownRequest 2 0x55 (args [])) mixed2
def mixed4 : State := mixed3.onChannel 3 fun c => { c with armed := true }

theorem witness_ExchangeOfImages_taken :
    ControlTaken imageMixed 0 mixed0 mixed1 ∧ ControlTaken imageMixed 1 mixed1 mixed2 ∧
    ControlTaken imageMixed 2 mixed2 mixed3 ∧ ControlTaken imageMixed 3 mixed3 mixed4 := by
  refine ⟨⟨fun _ => ⟨fun h => ?_, fun _ => ?_⟩, fun h => ?_⟩,
    ⟨fun h => ?_, fun _ => ⟨fun h => ?_, fun _ => ⟨fun _ c hw hp => ?_, fun h => ?_⟩⟩⟩,
    ⟨fun h => ?_, fun _ => ⟨fun h => ?_, fun _ => ⟨fun _ c hw hp => ?_, fun h => ?_⟩⟩⟩,
    ⟨fun h => ?_, fun _ => ⟨fun h => ?_, fun _ => ⟨fun h => ?_, fun _ => ?_⟩⟩⟩⟩
  · exact absurd h (by decide +kernel)
  · decide +kernel
  · exact absurd h (by decide +kernel)
  · exact absurd h (by decide +kernel)
  · exact absurd h (by decide +kernel)
  · rw [mixed_second c hw hp]; rfl
  · exact absurd h (by decide +kernel)
  · exact absurd h (by decide +kernel)
  · exact absurd h (by decide +kernel)
  · rw [mixed_third c hp]; rfl
  · exact absurd h (by decide +kernel)
  · exact absurd h (by decide +kernel)
  · exact absurd h (by decide +kernel)
  · exact absurd h (by decide +kernel)
  · decide +kernel

theorem witness_InputImageLayout : State.reset.ready = false ∧ start.ready = true := by decide

theorem witness_LinkLossRule :
    start.exchanging = true ∧ start.linkTimer = some 200 ∧
    ({ start with linkTimer := some 10 } : State).linkTimer = some 10 ∧
    ({ start with phase := .off } : State).exchanging = false := by decide +kernel

/-! ### Witnesses: resets, the scan, and the laws -/

/-- Nothing is left of an interrupted write. -/
def untouched : Interruption := ⟨.old, .old, .old, []⟩

theorem witness_ModuleResets :
    State.resetLine start = false ∧ start.phase ≠ .off ∧
      ({ start with phase := .off, resetLine := true } : State).resetLine = true ∧
      ({ start with phase := .off } : State).phase = .off := by decide +kernel

/-- A scan whose own writes a reset cuts short: slot 4 is not free and its entry is not in the table, and two records
have failed. -/
def scanCut : State :=
  { State.reset with
    slots := entries.take 4
    array := { start.array with stations := upd start.array.stations 31 .failed, moduleRec := .failed } }

theorem witness_ModuleResets_scan :
    scanCut.phase = .scanning ∧ scanCut.writer = none ∧ scanCut.array.wf = true ∧
      (scanCut.array.slot 4).header ≠ .free ∧ slotGet (partnerPass scanCut.slots) 4 = none ∧
      slotGet (partnerPass scanCut.slots) 3 ≠ none ∧
      sel scanCut.array.stations 31 = .failed ∧ scanCut.array.moduleRec = .failed := by decide +kernel

/-- The writes that a module reset cuts short. -/
theorem witness_ModuleResets_writes :
    start.phase = .running ∧ start.writer = none ∧ workingWf start.slots = true ∧ start.array.wf = true ∧
      writing22.phase = .running ∧
      ({ start with writer := some (.proposal 3 23 fillPlans [true]) } : State).phase = .running ∧
      fillPlans[[true].length]? = some ⟨.set, 2, key 3 4 121, .guarded, some 120, some ⟨1860, none, some 2000, 20, 4⟩⟩ ∧
      (⟨.torn, .new, .old, []⟩ : Interruption).header ≠ .old ∧ untouched.header = .old := by decide +kernel

theorem witness_ScanSettlesSlots :
    NvSlot.factory.header = .free ∧ (⟨.failed, none⟩ : NvSlot).header = .failed ∧
      ((⟨240, some 200, some 280, 2, 5⟩ : Body).ok = true ∧ (⟨240, some 241, some 280, 2, 5⟩ : Body).ok = false ∧
        (⟨240, some 200, some 280, 2, 0⟩ : Body).ok = false) ∧
      entryAt (SlotReading.mk entries 0).slots (key 9 0 1) = none ∧
      (entryAt (SlotReading.mk entries 0).slots (key 8 0 9)).isSome = true ∧
      (entries.map fun e => e.2.key).Nodup ∧ partnerPass entries = entries := by decide +kernel

/-- Partners that agree, partners at unequal revisions, and an entry whose partner is gone. -/
theorem witness_ScanSettlesSlots_partners :
    ((entryAt entries (key 3 4 121)).bind Entry.partner = some 120 ∧
      (entryAt entries (key 3 4 120)).bind Entry.partner = some 121) ∧
    (torn.map fun e => (e.2.body.map Body.revision)) = [some 5, some 4] ∧
    entryAt (torn.take 1) (key 3 4 121) = none ∧ (torn.take 1).map Prod.fst = [1] := by decide +kernel

theorem witness_ScanEnd :
    State.reset.phase = .scanning ∧ (∀ sec : SectionNo, (sel State.reset.outputs sec).mode = .auto) ∧
      sel State.reset.array.stations 31 = .valid .delivery ∧ start.array.wf = true ∧
      ((start.array.slot 4).header ≠ .free ∧ slotGet (entries.take 4) 4 = none) ∧
      (workingWf torn = true ∧ (torn.map fun e => e.2.key).Nodup) := by decide +kernel

/-- Banks of stations and of sections that meet the statement's rules, for any array. -/
theorem witness_ScanEnd_banks (a : NvArray) (f : StationNo → NvRecord StationPersist → StationRec) :
    (∃ b : Bank 32 StationRec, ∀ st, sel b st = f st (sel a.stations st)) ∧
    (∃ b : Bank 4 SectionPersist, ∀ sec, sel b sec = match sel a.sections sec with
      | .valid p => p | .failed => ⟨1, 600⟩) :=
  ⟨⟨Vector.ofFn fun st => f st (sel a.stations st), fun st => by simp [sel]⟩,
    ⟨Vector.ofFn fun sec => match sel a.sections sec with | .valid p => p | .failed => ⟨1, 600⟩,
      fun sec => by simp [sel]⟩⟩

/-- A check of the drafts that a kernel can run. -/
def draftsInOrder (s : State) : Bool :=
  (List.finRange 4).all fun ch =>
    match (sel s.channels ch).draft with
    | none => true
    | some l => decide (l.length ≤ 2) && decide (keysOf l).Nodup

theorem draftLaw_of {s : State} (h : draftsInOrder s = true) : DraftLaw s := by
  intro ch l hl
  have := (List.all_eq_true.1 h) ch (List.mem_finRange ch)
  rw [hl] at this
  simpa using this

/-- A channel that holds the draft of section 11.2, the trim's proposal open, a report waiting. -/
def busy : State :=
  { open22.setDraft 2 (some fill) with pending := [.reportValue 0 (args ([3] ++ two 130 ++ four 246))] }

theorem witness_StepKeepsOutputLaw : OutputLaw busy ∧ ∃ t, step busy = .next t := by
  refine ⟨?_, ⟨_, rfl⟩⟩
  unfold OutputLaw; decide +kernel

theorem witness_StepKeepsListLaw : ListLaw busy ∧ IdleLaw busy ∧ ∃ t, step busy = .next t := by
  refine ⟨?_, ?_, ⟨_, rfl⟩⟩
  · unfold ListLaw; decide +kernel
  · unfold IdleLaw; decide +kernel

theorem witness_StepKeepsSectionLaw : SectionLaw busy ∧ ∃ t, step busy = .next t := by
  refine ⟨?_, ⟨_, rfl⟩⟩
  unfold SectionLaw; decide +kernel

theorem witness_StepKeepsStoreLaw : StoreLaw busy ∧ StoreLaw writing22 ∧ ∃ t, step busy = .next t := by
  refine ⟨⟨by decide +kernel, by decide +kernel, trivial⟩, ⟨by decide +kernel, by decide +kernel, ?_⟩, ⟨_, rfl⟩⟩
  intro p hp
  rcases List.mem_singleton.1 hp with rfl
  decide

/-- Proposal 22's item being written, with the digests of the table and its completion waiting. -/
def completing : State := { rebuilt22 with pending := [.proposalItemCompletion .verified] }

theorem entriesMem {e : Entry} (h : e ∈ entries.map Prod.snd) :
    e = ⟨key 3 0 130, .tunable, none, some ⟨240, some 200, some 280, 2, 5⟩⟩ ∨
    e = ⟨key 3 4 120, .guarded, some 121, some ⟨3300, some 3280, some 3320, 5, 3⟩⟩ ∨
    e = ⟨key 3 4 121, .guarded, some 120, some ⟨1850, none, some 2000, 20, 3⟩⟩ ∨
    e = ⟨key 8 0 7, .guarded, none, none⟩ ∨
    e = ⟨key 8 0 9, .fixed, none, some ⟨10, none, none, 0, 65535⟩⟩ := by
  simpa [entries] using h

theorem partners_entries : PartnersLaw entries := by
  intro e he q hq
  rcases entriesMem he with rfl | rfl | rfl | rfl | rfl
  · cases hq
  · cases hq
    exact ⟨_, rfl, rfl, fun b b' h h' => by cases h; cases h'; rfl⟩
  · cases hq
    exact ⟨_, rfl, rfl, fun b b' h h' => by cases h; cases h'; rfl⟩
  · cases hq
  · cases hq

theorem tableLaw_completing : TableLaw completing := by
  refine ⟨by decide +kernel, witness_ExpectedPairIsSum, ⟨nofun, .nil, fun _ => rfl⟩, ?_,
    fun _ => ⟨partners_entries, rfl⟩⟩
  intro e he b hb
  rcases entriesMem he with rfl | rfl | rfl | rfl | rfl <;> cases hb
  · exact ⟨fun lo hi h h' => by cases h; cases h'; decide, fun lo h => by cases h; decide,
      fun hi h => by cases h; decide, by decide⟩
  · exact ⟨fun lo hi h h' => by cases h; cases h'; decide, fun lo h => by cases h; decide,
      fun hi h => by cases h; decide, by decide⟩
  · exact ⟨fun lo hi h h' => (nomatch h), fun lo h => (nomatch h), fun hi h => (by cases h; decide), by decide⟩
  · exact ⟨fun lo hi h h' => (nomatch h), fun lo h => (nomatch h), fun hi h => (nomatch h), by decide⟩

/-- The item being written is proposal 22's, on channel 3. -/
theorem being_completing {ch : ChannelNo} {n : Nat} (h : BeingWritten completing ch n) : ch = 2 ∧ n = 22 := by
  obtain ⟨plans, results, h⟩ := h
  rw [show completing.writer = writing22.writer from rfl] at h
  simp only [writing22, Option.some.injEq, Job.proposal.injEq] at h
  exact ⟨h.1.symm, h.2.1.symm⟩

theorem writingLaw_completing : WritingLaw completing := by
  refine ⟨List.nodup_nil, fun ch n => ⟨?_, ?_⟩, fun ch n h => (nomatch h.1), fun h => absurd rfl h⟩
  · rintro (h | h)
    · cases h
    · obtain ⟨rfl, rfl⟩ := being_completing h
      exact ⟨_, List.mem_singleton.2 rfl, rfl, rfl⟩
  · rintro ⟨p, hp, h, h'⟩
    rcases List.mem_singleton.1 hp with rfl
    cases h; cases h'
    exact .inr ⟨_, _, rfl⟩

theorem workLaw_completing : WorkLaw completing := by
  refine ⟨?_, by decide +kernel, ?_, ?_⟩
  · intro p hp
    rcases List.mem_singleton.1 hp with rfl
    refine ⟨by decide, fun c hc => ?_⟩
    rcases List.mem_singleton.1 hc with rfl
    refine ⟨by decide +kernel, ?_, ?_⟩
    · intro low high v h
      obtain ⟨rfl, rfl, rfl⟩ : low = some 200 ∧ high = some 280 ∧ v = 246 := by
        have : Change.effective completing.slots trim = some (some 200, some 280, 246) := by decide +kernel
        simp_all
      exact ⟨fun lo hi h h' => by cases h; cases h'; decide, fun lo h => by cases h; decide,
        fun hi h => by cases h; decide⟩
    · intro q h
      rw [show partnerOf completing.slots trim = none from by decide +kernel] at h
      cases h
  · intro ch n plans results h
    obtain ⟨rfl, rfl⟩ := being_completing ⟨_, _, h⟩
    rw [show completing.writer = writing22.writer from rfl] at h
    simp only [writing22, Option.some.injEq, Job.proposal.injEq] at h
    obtain ⟨_, _, rfl, rfl⟩ := h
    exact ⟨by decide, _, List.mem_singleton.2 rfl, rfl, by decide +kernel⟩
  · intro ch n plans results p h hp
    rw [show completing.writer = writing22.writer from rfl] at h
    simp only [writing22, Option.some.injEq, Job.proposal.injEq] at h
    obtain ⟨_, _, rfl, rfl⟩ := h
    cases hp

/-- The law of writing before READY, and the step that a START_UP_SCAN_END makes from there. -/
theorem witness_StepKeepsProposalLaw_scan :
    WritingLaw { State.reset with pending := [.startUpScanEnd []] } ∧
      ∃ t, step { State.reset with pending := [.startUpScanEnd []] } = .next t := by
  refine ⟨⟨List.nodup_nil, fun ch n => ⟨?_, ?_⟩, fun ch n h => (nomatch h.1), fun _ => ⟨rfl, rfl, rfl, ?_⟩⟩, ⟨_, rfl⟩⟩
  · rintro (h | ⟨_, _, h⟩) <;> cases h
  · rintro ⟨p, hp, _⟩; cases hp
  · decide +kernel

/-- The law of the freed slots where there is one. -/
theorem witness_FreedLaw : FreedLaw halfRetired := by
  have h : halfRetired.freed = [1] := by decide +kernel
  refine ⟨fun n hn => ?_, by rw [h]; simp, fun hp => absurd (by decide +kernel) hp⟩
  rw [h] at hn
  rcases List.mem_singleton.1 hn with rfl
  refine ⟨⟨⟨key 3 4 120, .guarded, some 121, none⟩, by decide +kernel, rfl, by decide⟩, fun k cls q he => ?_⟩
  rw [show (halfRetired.array.slot 1).header = .free from by decide +kernel] at he
  cases he

/-- A state in which every law of the table, of writing and of the writer's work holds, and an item completes. -/
theorem witness_StepKeepsStoreLaw_table :
    StoreLaw completing ∧ ProposalLaw completing ∧ TableLaw completing ∧ WritingLaw completing ∧
      WorkLaw completing ∧ ∃ t, step completing = .next t := by
  refine ⟨⟨by decide +kernel, by decide +kernel, ?_⟩, ?_, tableLaw_completing, writingLaw_completing,
    workLaw_completing, ⟨_, rfl⟩⟩
  · intro p hp
    rcases List.mem_singleton.1 hp with rfl
    decide
  · unfold ProposalLaw; decide +kernel

theorem witness_StepKeepsProposalLaw : ProposalLaw busy ∧ DraftLaw busy ∧ ∃ t, step busy = .next t := by
  refine ⟨?_, draftLaw_of (by decide +kernel), ⟨_, rfl⟩⟩
  unfold ProposalLaw; decide +kernel

end Sys2Proof.Tests
end

section
/-! SUPPORT. A request command is its code taken on its channel; what Tables 46 and 59 say of the request that runs;
and what a request that passes the channel's checks answers. -/

namespace Sys2Proof.Machine

/-- A command that is a request is the request of its code (R174). -/
theorem exec_request {c : Instr} {ch : ChannelNo} {code : Byte} {a : Args}
    (h : requestParts c = some (ch, code, a)) (s : State) : exec c s = .next (takeCode ch code a s) := by
  cases c <;> simp only [requestParts, Option.some.injEq, Prod.mk.injEq, reduceCtorEq] at h <;>
    (obtain ⟨rfl, rfl, rfl⟩ := h; rfl)

/-- A request and a row of the table have one code, one number of argument bytes and the same roles. -/
def RequestSpec.agrees (r : RequestSpec) (row : Nat × Nat × List Role) : Bool :=
  r.code.toNat == row.1 && r.used == row.2.1 && everyRole.all fun x => r.admits x == row.2.2.contains x

/-- The request of every code that Table 59 lists is as Tables 46 and 59 have it. -/
theorem requestTable_agrees :
    requestTable.all (fun row => (requestOf row.1).any fun r => r.agrees row) = true := by decide

theorem mem_everyRole (x : Role) : x ∈ everyRole := by cases x <;> decide

/-- The request that a listed code runs, with its argument bytes and roles. -/
theorem requestOf_listed {code : Byte} {used : Nat} {roles : List Role}
    (h : listedRequest code = some (used, roles)) :
    ∃ r, requestOf code.toNat = some r ∧ r.code = code ∧ r.used = used ∧
      ∀ x, r.admits x = true ↔ x ∈ roles := by
  obtain ⟨l, l', hl, -⟩ := List.lookup_eq_some_iff.1 h
  have hrow := List.all_eq_true.1 requestTable_agrees (code.toNat, used, roles) (by simp [hl])
  obtain ⟨r, hr, hagree⟩ := (Option.any_eq_true _ _).1 hrow
  simp only [RequestSpec.agrees, Bool.and_eq_true, beq_iff_eq, List.all_eq_true] at hagree
  obtain ⟨⟨hcode, hused⟩, hroles⟩ := hagree
  exact ⟨r, hr, BitVec.eq_of_toNat_eq hcode, hused, fun x => by simp [hroles x (mem_everyRole x)]⟩

/-- A listed request that passes the channel's checks is run by its owning block. -/
theorem exec_passes {c : Instr} {ch : ChannelNo} {code : Byte} {a : Args} {s : State} {used : Nat} {roles : List Role}
    (hc : requestParts c = some (ch, code, a)) (hl : listedRequest code = some (used, roles))
    (hp : Passes used roles ch a s) :
    ∃ r, requestOf code.toNat = some r ∧
      exec c s = .next (runRequest r ch a (arrive ch ⟨r.code, a⟩ s)) := by
  obtain ⟨r, hr, -, hused, hroles⟩ := requestOf_listed hl
  obtain ⟨harrive, hready, hzero, hrole⟩ := hp
  refine ⟨r, hr, ?_⟩
  rw [exec_request hc, takeCode, hr]
  exact congrArg _ (takeRequest_run harrive hready (hused ▸ hzero) ((hroles _).2 hrole))

/-- A request that passes the checks and whose owning block only answers. -/
theorem exec_answers {c : Instr} {ch : ChannelNo} {code : Byte} {a : Args} {s : State} {used : Nat}
    {roles : List Role} {r : RequestSpec} {answer : AnswerCode} {result : List Byte}
    (hc : requestParts c = some (ch, code, a)) (hr : requestOf code.toNat = some r)
    (hl : listedRequest code = some (used, roles)) (hp : Passes used roles ch a s)
    (hrun : r.run ch a (arrive ch ⟨r.code, a⟩ s) = (arrive ch ⟨r.code, a⟩ s, .now answer result)) :
    exec c s = .next (answered ch answer result s) := by
  obtain ⟨r', hr', he⟩ := exec_passes hc hl hp
  obtain rfl : r' = r := Option.some.inj (hr'.symm.trans hr)
  rw [he, runRequest, hrun, settle_self]
  exact congrArg _ (deliver_arrive ch _ _ _ s)

end Sys2Proof.Machine
end

section
/-! SUPPORT. What all commands but the store's own leave alone: the working form, the freed slots, the digests, the
array and the phase; and that whatever plans they form are for slots of the array. -/

namespace Sys2Proof.Machine

/-- From `s` to `t` nothing changes that the laws of the store and of the table speak of, but that the writer may have
taken another item, whose plans are for slots of the array. -/
structure StoreFrame (s t : State) : Prop where
  phase : t.phase = s.phase
  slots : t.slots = s.slots
  freed : t.freed = s.freed
  digests : t.digests = s.digests
  array : t.array = s.array
  plans : workingWf s.slots = true → plansInArray s.writer → plansInArray t.writer

namespace StoreFrame

variable {s t u : State}

/-- A state with the store's fields and the writer unchanged. -/
theorem of_eq (hp : t.phase = s.phase) (hs : t.slots = s.slots) (hf : t.freed = s.freed) (hd : t.digests = s.digests)
    (ha : t.array = s.array) (hw : t.writer = s.writer) : StoreFrame s t :=
  ⟨hp, hs, hf, hd, ha, fun _ h => hw ▸ h⟩

@[refl] theorem refl (s : State) : StoreFrame s s := of_eq rfl rfl rfl rfl rfl rfl

theorem trans (h : StoreFrame s t) (h' : StoreFrame t u) : StoreFrame s u where
  phase := h'.phase.trans h.phase
  slots := h'.slots.trans h.slots
  freed := h'.freed.trans h.freed
  digests := h'.digests.trans h.digests
  array := h'.array.trans h.array
  plans hw hp := h'.plans (h.slots ▸ hw) (h.plans hw hp)

/-- The fields of the store and the writer after a change of other fields. -/
theorem of_rfl (h : StoreFrame s t) (hp : u.phase = t.phase := by rfl) (hs : u.slots = t.slots := by rfl)
    (hf : u.freed = t.freed := by rfl) (hd : u.digests = t.digests := by rfl) (ha : u.array = t.array := by rfl)
    (hw : u.writer = t.writer := by rfl) : StoreFrame s u :=
  h.trans (of_eq hp hs hf hd ha hw)

/-! ### The queue and the writer -/

/-- The plans formed for an item are for slots of the array. -/
theorem formJob_inArray (i : WriteItem) (hm : workingWf s.slots = true) : plansInArray (formJob s i) := by
  cases i with
  | moduleRec => trivial
  | sect n => trivial
  | station n => trivial
  | proposal ch number =>
    simp only [formJob]
    split
    · trivial
    · next p _ =>
      cases hplan : planSlots s.slots p.changes (s.slots.map Prod.fst) p.changes with
      | none => trivial
      | some plans => exact planSlots_inArray hm hplan

theorem takeItem (s : State) : StoreFrame s (takeItem s) := by
  refine ⟨by simp, by simp, by simp, by simp, by simp, fun hm hp => ?_⟩
  rcases takeItem_spec s with h | ⟨i, -, -, h⟩
  · rwa [h]
  · rw [h]; exact formJob_inArray i hm

theorem enqueue (i : WriteItem) (h : StoreFrame s t) : StoreFrame s (enqueue i t) := by
  by_cases hi : i ∈ t.queue
  · rwa [enqueue_queued hi]
  · rw [enqueue_new hi]; exact (h.of_rfl (u := { t with queue := t.queue ++ [i] })).trans (takeItem _)

/-! ### Sections and outputs -/

theorem settle (b : State) (h : StoreFrame s t) : StoreFrame s (settle b t) := h.of_rfl

theorem recompute (sec : SectionNo) (h : StoreFrame s t) : StoreFrame s (recompute sec t) := by
  have hsteady : ∀ f, StoreFrame s (steadyOn sec f t) := by
    intro f
    unfold steadyOn
    dsimp only
    split
    · exact h.of_rfl
    · exact (h.of_rfl (u := t.setSectionRec sec _)).enqueue _
  unfold Machine.recompute
  split
  · exact h
  · split
    · exact hsteady _
    · split
      · exact hsteady _
      · exact h.of_rfl

theorem setSectionRec (sec : SectionNo) (r : SectionRec) (h : StoreFrame s t) : StoreFrame s (t.setSectionRec sec r) :=
  h.of_rfl

theorem clearPending (sec : SectionNo) (s : State) : StoreFrame s (clearPending sec s) :=
  of_eq (by simp) (by simp) (by simp) (by simp) (by simp) (by simp)

theorem markPending (sec : SectionNo) (f : FormatNo) (s : State) : StoreFrame s (markPending sec f s) :=
  of_eq (by simp) (by simp) (by simp) (by simp) (by simp) (by simp)

theorem endChangeover (sec : SectionNo) (h : StoreFrame s t) : StoreFrame s (endChangeover sec t) := by
  unfold Machine.endChangeover
  dsimp only
  exact recompute sec (setSectionRec sec _ (h.trans (clearPending sec t)))

theorem adoptionNotice (sec : SectionNo) (h : StoreFrame s t) : StoreFrame s (adoptionNotice sec t) := by
  unfold Machine.adoptionNotice
  split
  · exact h.endChangeover sec
  · exact h

theorem beginChangeover (sec : SectionNo) (f : FormatNo) (h : StoreFrame s t) :
    StoreFrame s (beginChangeover sec f t) := by
  have hmark : ∀ r, StoreFrame s (Machine.markPending sec f (t.setSectionRec sec r)) := fun r =>
    (h.setSectionRec sec r).trans (.markPending sec f _)
  unfold Machine.beginChangeover
  dsimp only
  split
  · exact .enqueue _ (.setSectionRec sec _ (hmark _))
  · exact hmark _

end StoreFrame

/-! ### The requests -/

theorem runModuleInfo_frame (a : Args) (s : State) : StoreFrame s (runModuleInfo a s).1 := by
  simp only [runModuleInfo]; split <;> exact .of_eq rfl rfl rfl rfl rfl rfl

theorem runSetEventMask_frame (ch : ChannelNo) (a : Args) (s : State) : StoreFrame s (runSetEventMask ch a s).1 := by
  simp only [runSetEventMask]; split <;> exact .of_eq rfl rfl rfl rfl rfl rfl

theorem runSignOn_frame (ch : ChannelNo) (a : Args) (s : State) : StoreFrame s (runSignOn ch a s).1 := by
  simp only [runSignOn]
  split
  · exact .refl s
  · repeat' split
    all_goals exact .of_eq rfl rfl rfl rfl rfl rfl

theorem runSetRoleCode_frame (a : Args) (s : State) : StoreFrame s (runSetRoleCode a s).1 := by
  simp only [runSetRoleCode]
  split
  · exact .enqueue _ (.of_eq rfl rfl rfl rfl rfl rfl)
  · exact .refl s

theorem runOpenRelease_frame (a : Args) (s : State) : StoreFrame s (runOpenRelease a s).1 := by
  simp only [runOpenRelease]; split <;> exact .of_eq rfl rfl rfl rfl rfl rfl

theorem runSetLifetime_frame (a : Args) (s : State) : StoreFrame s (runSetLifetime a s).1 := by
  simp only [runSetLifetime]
  split
  · exact .refl s
  · exact .enqueue _ (.of_eq rfl rfl rfl rfl rfl rfl)

theorem runListEntries_frame (ch : ChannelNo) (a : Args) (s : State) : StoreFrame s (runListEntries ch a s).1 := by
  simp only [runListEntries]
  split
  · split <;> exact .of_eq rfl rfl rfl rfl rfl rfl
  · exact .refl s

theorem runNextEntry_frame (ch : ChannelNo) (s : State) : StoreFrame s (runNextEntry ch s).1 := by
  simp only [runNextEntry]
  split
  · split <;> exact .of_eq rfl rfl rfl rfl rfl rfl
  · exact .refl s
  · exact .refl s

theorem addChange_frame (ch : ChannelNo) (c : Change) (s : State) : StoreFrame s (addChange ch c s).1 := by
  simp only [addChange]
  split
  · exact .refl s
  · repeat' split
    all_goals exact .of_eq rfl rfl rfl rfl rfl rfl

theorem amend_frame (ch : ChannelNo) (f : Change → Option Change) (s : State) : StoreFrame s (amend ch f s).1 := by
  simp only [amend]
  repeat' split
  all_goals exact .of_eq rfl rfl rfl rfl rfl rfl

theorem runDraftSet_frame (ch : ChannelNo) (a : Args) (s : State) : StoreFrame s (runDraftSet ch a s).1 := by
  simp only [runDraftSet]
  split
  · exact .refl s
  · exact addChange_frame _ _ _

theorem runDraftCreate_frame (ch : ChannelNo) (a : Args) (s : State) : StoreFrame s (runDraftCreate ch a s).1 := by
  simp only [runDraftCreate]
  split
  · exact addChange_frame _ _ _
  · exact .refl s

theorem runDraftRetire_frame (ch : ChannelNo) (a : Args) (s : State) : StoreFrame s (runDraftRetire ch a s).1 := by
  simp only [runDraftRetire]
  split
  · exact .refl s
  · exact addChange_frame _ _ _

theorem runDraftBounds_frame (ch : ChannelNo) (a : Args) (s : State) : StoreFrame s (runDraftBounds ch a s).1 := by
  simp only [runDraftBounds]
  split
  · exact amend_frame _ _ _
  · exact .refl s

theorem runDraftPartner_frame (ch : ChannelNo) (a : Args) (s : State) : StoreFrame s (runDraftPartner ch a s).1 := by
  simp only [runDraftPartner]
  split
  · exact .refl s
  · exact amend_frame _ _ _

theorem runDraftSubmit_frame (ch : ChannelNo) (s : State) : StoreFrame s (runDraftSubmit ch s).1 := by
  simp only [runDraftSubmit]
  repeat' split
  all_goals exact .of_eq rfl rfl rfl rfl rfl rfl

theorem runApprove_frame (ch : ChannelNo) (a : Args) (s : State) : StoreFrame s (runApprove ch a s).1 := by
  simp only [runApprove]
  split
  · exact .refl s
  · split
    · exact .refl s
    · split
      · exact .refl s
      · exact .enqueue _ (.of_eq rfl rfl rfl rfl rfl rfl)

theorem runReject_frame (ch : ChannelNo) (a : Args) (s : State) : StoreFrame s (runReject ch a s).1 := by
  simp only [runReject]
  repeat' split
  all_goals exact .of_eq rfl rfl rfl rfl rfl rfl

theorem runWithdraw_frame (ch : ChannelNo) (a : Args) (s : State) : StoreFrame s (runWithdraw ch a s).1 := by
  simp only [runWithdraw]
  repeat' split
  all_goals exact .of_eq rfl rfl rfl rfl rfl rfl

theorem runListProposals_frame (ch : ChannelNo) (s : State) : StoreFrame s (runListProposals ch s).1 := by
  simp only [runListProposals]; split <;> exact .of_eq rfl rfl rfl rfl rfl rfl

theorem runNextProposal_frame (ch : ChannelNo) (s : State) : StoreFrame s (runNextProposal ch s).1 := by
  simp only [runNextProposal]
  split
  · split <;> exact .of_eq rfl rfl rfl rfl rfl rfl
  · exact .refl s
  · exact .refl s

theorem runEnroll_frame (a : Args) (s : State) : StoreFrame s (runEnroll a s).1 := by
  simp only [runEnroll]
  split
  · next st sec _ _ =>
    have henrolled : ∀ r, StoreFrame s (recompute sec (enqueue (.station st) (s.setStation st r))) := fun r =>
      .recompute _ (.enqueue _ (.of_eq rfl rfl rfl rfl rfl rfl))
    split
    · exact .refl s
    · split
      · exact .refl s
      · dsimp only
        split
        · exact (henrolled _).recompute _
        · exact henrolled _
  · exact .refl s

theorem runUnenroll_frame (a : Args) (s : State) : StoreFrame s (runUnenroll a s).1 := by
  simp only [runUnenroll]
  split
  · exact .refl s
  · split
    · exact .refl s
    · split
      · exact .refl s
      · exact .recompute _ (.enqueue _ (.of_eq rfl rfl rfl rfl rfl rfl))

theorem runReportValue_frame (a : Args) (s : State) : StoreFrame s (runReportValue a s).1 := by
  simp only [runReportValue]
  repeat' split
  all_goals exact .of_eq rfl rfl rfl rfl rfl rfl

theorem judgeDigest_frame (st : StationNo) (f : FormatNo) (d : DigestPair) (r : StationRec) (s : State) :
    StoreFrame s (judgeDigest st f d r s).1 := by
  have hset : ∀ r', StoreFrame s (s.setStation st r') := fun r' => .of_eq rfl rfl rfl rfl rfl rfl
  simp only [judgeDigest]
  split
  · exact hset _
  · split
    · simp only [reportAdoption]
      split
      · exact ((hset _).enqueue _).adoptionNotice _
      · exact hset _
    · exact hset _

theorem runReportDigest_frame (a : Args) (s : State) : StoreFrame s (runReportDigest a s).1 := by
  simp only [runReportDigest]
  split
  · split
    · exact .refl s
    · split
      · exact .refl s
      · split
        · exact .refl s
        · exact judgeDigest_frame _ _ _ _ s
  · exact .refl s

theorem runHold_frame (ch : ChannelNo) (a : Args) (s : State) : StoreFrame s (runHold ch a s).1 := by
  simp only [runHold]
  repeat' split
  all_goals exact .of_eq rfl rfl rfl rfl rfl rfl

theorem runReleaseHold_frame (ch : ChannelNo) (a : Args) (s : State) : StoreFrame s (runReleaseHold ch a s).1 := by
  simp only [runReleaseHold]
  repeat' split
  all_goals exact .of_eq rfl rfl rfl rfl rfl rfl

theorem runChangeover_frame (a : Args) (s : State) : StoreFrame s (runChangeover a s).1 := by
  simp only [runChangeover]
  split
  · split
    · exact .refl s
    · split
      · exact .refl s
      · dsimp only
        exact (StoreFrame.refl s).beginChangeover _ _
  · exact .refl s

theorem runAbortChangeover_frame (a : Args) (s : State) : StoreFrame s (runAbortChangeover a s).1 := by
  simp only [runAbortChangeover]
  split
  · exact .refl s
  · split
    · dsimp only
      exact (StoreFrame.refl s).endChangeover _
    · exact .refl s

theorem runSetSection_frame (a : Args) (s : State) : StoreFrame s (runSetSection a s).1 := by
  simp only [runSetSection]
  split
  · exact .refl s
  · split
    · exact .refl s
    · split
      · exact .refl s
      · exact .enqueue _ (.of_eq rfl rfl rfl rfl rfl rfl)

theorem runSetOutputMode_frame (ch : ChannelNo) (a : Args) (s : State) :
    StoreFrame s (runSetOutputMode ch a s).1 := by
  simp only [runSetOutputMode]
  repeat' split
  all_goals exact .of_eq rfl rfl rfl rfl rfl rfl

/-- What any owning block does leaves the store's fields. -/
theorem requestOf_frame {code : Nat} {r : RequestSpec} (h : requestOf code = some r) (ch : ChannelNo) (a : Args)
    (s : State) : StoreFrame s (r.run ch a s).1 := by
  unfold requestOf at h
  split at h <;> cases h
  · exact runModuleInfo_frame a s
  · exact .of_eq rfl rfl rfl rfl rfl rfl
  · exact runSetEventMask_frame ch a s
  · exact runSignOn_frame ch a s
  · exact .of_eq rfl rfl rfl rfl rfl rfl
  · exact runSetRoleCode_frame a s
  · exact runOpenRelease_frame a s
  · exact .of_eq rfl rfl rfl rfl rfl rfl
  · exact runSetLifetime_frame a s
  · exact .refl s
  · exact .refl s
  · exact .refl s
  · exact .refl s
  · exact runListEntries_frame ch a s
  · exact runNextEntry_frame ch s
  · exact .refl s
  · exact .of_eq rfl rfl rfl rfl rfl rfl
  · exact runDraftSet_frame ch a s
  · exact runDraftCreate_frame ch a s
  · exact runDraftRetire_frame ch a s
  · exact runDraftBounds_frame ch a s
  · exact amend_frame ch _ s
  · exact runDraftPartner_frame ch a s
  · exact runDraftSubmit_frame ch s
  · exact .of_eq rfl rfl rfl rfl rfl rfl
  · exact runApprove_frame ch a s
  · exact runReject_frame ch a s
  · exact runWithdraw_frame ch a s
  · exact runListProposals_frame ch s
  · exact runNextProposal_frame ch s
  · exact .refl s
  · exact runEnroll_frame a s
  · exact runUnenroll_frame a s
  · exact runReportValue_frame a s
  · exact runReportDigest_frame a s
  · exact runHold_frame ch a s
  · exact runReleaseHold_frame ch a s
  · exact .refl s
  · exact .refl s
  · exact runChangeover_frame a s
  · exact runAbortChangeover_frame a s
  · exact runSetSection_frame a s
  · exact .refl s
  · exact runSetOutputMode_frame ch a s

theorem reply_frame (ch : ChannelNo) (r : Reply) (s : State) : StoreFrame s (reply ch r s) := by
  cases r <;> exact .of_eq rfl rfl rfl rfl rfl rfl

/-- Any request, taken by its code, leaves the store's fields. -/
theorem takeCode_frame (ch : ChannelNo) (code : Byte) (a : Args) (s : State) :
    StoreFrame s (takeCode ch code a s) := by
  have harrive : ∀ req, StoreFrame s (arrive ch req s) := fun req => .of_eq rfl rfl rfl rfl rfl rfl
  unfold takeCode
  split
  · next r hr =>
    unfold takeRequest
    split
    · unfold handOn
      split
      · exact (harrive _).trans (reply_frame _ _ _)
      · exact (harrive _).trans (((requestOf_frame hr ch a _).settle _).trans (reply_frame _ _ _))
    · exact .refl s
  · unfold takeUnlisted
    split
    · exact (harrive _).trans (reply_frame _ _ _)
    · exact .refl s

/-! ### The other commands -/

theorem takeControl_frame (image : OutputImage) (s : State) (ch : ChannelNo) :
    StoreFrame s (takeControl image s ch) := by
  simp only [takeControl]
  split
  · exact .of_eq rfl rfl rfl rfl rfl rfl
  · split
    · exact .of_eq rfl rfl rfl rfl rfl rfl
    · split
      · exact takeCode_frame _ _ _ _
      · exact .of_eq rfl rfl rfl rfl rfl rfl

theorem foldl_takeControl_frame (image : OutputImage) (l : List ChannelNo) (s : State) :
    StoreFrame s (l.foldl (takeControl image) s) := by
  induction l generalizing s with
  | nil => exact .refl s
  | cons ch l ih => exact (takeControl_frame image s ch).trans (ih _)

theorem tick_frame (s : State) : StoreFrame s s.tick := .of_eq rfl rfl rfl rfl rfl rfl

/-- The commands by which the store's fields change: the writer's completions, the module resets, the loss of the logic
supply, and the end of the scan. -/
def isStoreEvent : Instr → Bool
  | .recordWriteCompletion _ => true
  | .slotWriteCompletion _ => true
  | .proposalItemCompletion _ => true
  | .powerOn _ _ => true
  | .busReset _ _ => true
  | .busResetLineAsserted _ => true
  | .logicSupplyLoss _ => true
  | .startUpScanEnd _ => true
  | _ => false

theorem execLinkLoss_frame {s t : State} (h : execLinkLoss s = .next t) : StoreFrame s t := by
  cases h
  split
  · exact .settle s (.of_eq rfl rfl rfl rfl rfl rfl)
  · exact .refl s

theorem execProposalExpiry_frame {n : Nat} {s t : State} (h : execProposalExpiry n s = .next t) :
    StoreFrame s t := by
  cases h
  split
  · exact .refl s
  · split
    · exact .settle s (.of_eq rfl rfl rfl rfl rfl rfl)
    · exact .refl s

theorem execDeadlineExpiry_frame {sec : SectionNo} {s t : State} (h : execDeadlineExpiry sec s = .next t) :
    StoreFrame s t := by
  cases h
  split
  · exact .settle s ((StoreFrame.refl s).endChangeover sec)
  · exact .refl s

theorem execImageExchange_frame {image : OutputImage} {s t : State} (h : execImageExchange image s = .next t) :
    StoreFrame s t := by
  cases h
  split
  · have hbegin : StoreFrame s (beginExchange s) := .of_eq rfl rfl rfl rfl rfl rfl
    exact hbegin.trans (foldl_takeControl_frame image _ _)
  · exact .refl s

/-- Every command but the store's own leaves the store's fields. -/
theorem exec_frame {c : Instr} {s t : State} (hc : isStoreEvent c = false) (h : exec c s = .next t) :
    StoreFrame s t := by
  have hevent : ∀ (b : Bool) (u : State), StoreFrame s u → StoreFrame s (if b then u else s) := by
    intro b u hu
    cases b
    · exact .refl s
    · exact hu
  cases hreq : requestParts c with
  | some x =>
    rw [exec_request hreq] at h
    cases h
    exact takeCode_frame _ _ _ _
  | none =>
    cases c <;> simp only [requestParts, isStoreEvent, reduceCtorEq] at hreq hc
    case imageExchange image => exact execImageExchange_frame h
    case linkLoss => exact execLinkLoss_frame h
    case proposalExpiry n => exact execProposalExpiry_frame h
    case deadlineExpiry sec => exact execDeadlineExpiry_frame h
    case readbackChange sec level =>
      cases h
      split
      · exact .refl s
      · exact .settle s (.of_eq rfl rfl rfl rfl rfl rfl)
    case outputFaultDelayExpiry sec =>
      cases h
      split
      · exact .settle s (.of_eq rfl rfl rfl rfl rfl rfl)
      · exact .refl s
    case fieldSupplyLoss => cases h; exact .of_eq rfl rfl rfl rfl rfl rfl
    case fieldSupplyReturn => cases h; exact .of_eq rfl rfl rfl rfl rfl rfl
    all_goals
      cases h
      exact hevent _ _ (.of_eq rfl rfl rfl rfl rfl rfl)

end Sys2Proof.Machine
end

section
/-! SUPPORT. The table as a map of slots and as a map of keys: what is listed, when keys are unique, and the entry that
a key has. -/

namespace Sys2Proof.Machine

/-! ### Listed slots -/

theorem mem_of_slotGet {α : Type} {m : SlotMap α} {n : Nat} {a : α} (h : slotGet m n = some a) : (n, a) ∈ m := by
  induction m with
  | nil => cases h
  | cons x m ih =>
    simp only [slotGet] at h
    split at h
    · next hx => cases h; rw [← hx]; exact List.mem_cons_self
    · exact List.mem_cons_of_mem _ (ih h)

theorem slotGet_eq_none {α : Type} {m : SlotMap α} {n : Nat} : slotGet m n = none ↔ n ∉ m.map Prod.fst := by
  induction m with
  | nil => simp [slotGet]
  | cons x m ih =>
    simp only [slotGet, List.map_cons, List.mem_cons, not_or]
    split
    · next hx => simp [hx]
    · next hx => simp [ih, Ne.symm hx]

/-- The slots of a rising array are those of its list, at or above its bound. -/
theorem slotsRise_le {α : Type} {m : SlotMap α} {lo : Nat} (h : slotsRise lo m = true) : ∀ x ∈ m, lo ≤ x.1 := by
  induction m generalizing lo with
  | nil => simp
  | cons e m ih =>
    simp only [slotsRise, Bool.and_eq_true, decide_eq_true_eq] at h
    obtain ⟨⟨hlo, -⟩, hm⟩ := h
    intro x hx
    rcases List.mem_cons.1 hx with rfl | hx
    · exact hlo
    · exact Nat.le_of_lt (Nat.lt_of_le_of_lt hlo (ih hm x hx))

/-- In a rising array what is listed is what is read. -/
theorem slotGet_of_mem {α : Type} {m : SlotMap α} {lo n : Nat} {a : α} (hm : slotsRise lo m = true)
    (h : (n, a) ∈ m) : slotGet m n = some a := by
  induction m generalizing lo with
  | nil => cases h
  | cons x m ih =>
    simp only [slotsRise, Bool.and_eq_true, decide_eq_true_eq] at hm
    simp only [slotGet]
    rcases List.mem_cons.1 h with rfl | h
    · simp
    · have : x.1 ≠ n := Nat.ne_of_lt (slotsRise_le hm.2 _ h)
      rw [if_neg this, ih hm.2 h]

theorem mem_iff_slotGet {α : Type} {m : SlotMap α} {lo n : Nat} {a : α} (hm : slotsRise lo m = true) :
    (n, a) ∈ m ↔ slotGet m n = some a :=
  ⟨slotGet_of_mem hm, mem_of_slotGet⟩

/-- Slots in rising order. -/
theorem slotsRise_pairwise {α : Type} {m : SlotMap α} {lo : Nat} (h : slotsRise lo m = true) :
    (m.map Prod.fst).Pairwise (· < ·) := by
  induction m generalizing lo with
  | nil => exact .nil
  | cons x m ih =>
    simp only [slotsRise, Bool.and_eq_true, decide_eq_true_eq] at h
    refine List.pairwise_cons.2 ⟨fun n hn => ?_, ih h.2⟩
    obtain ⟨y, hy, rfl⟩ := List.mem_map.1 hn
    exact slotsRise_le h.2 y hy

theorem slotsRise_iff {α : Type} {m : SlotMap α} {lo : Nat} : slotsRise lo m = true ↔
    (m.map Prod.fst).Pairwise (· < ·) ∧ ∀ x ∈ m, lo ≤ x.1 ∧ x.1 < Config.slotCount := by
  refine ⟨fun h => ⟨slotsRise_pairwise h, fun x hx => ⟨slotsRise_le h x hx, slotsRise_lt h x hx⟩⟩, ?_⟩
  induction m generalizing lo with
  | nil => exact fun _ => rfl
  | cons x m ih =>
    rintro ⟨hp, hb⟩
    obtain ⟨hx, hp⟩ := List.pairwise_cons.1 hp
    simp only [slotsRise, Bool.and_eq_true, decide_eq_true_eq]
    exact ⟨hb x List.mem_cons_self, ih ⟨hp, fun y hy =>
      ⟨hx _ (List.mem_map_of_mem hy), (hb y (List.mem_cons_of_mem _ hy)).2⟩⟩⟩

/-- A rising array of which some slots are listed no more, the others with other contents, is rising. -/
theorem slotsRise_sublist {α β : Type} {m : SlotMap α} {m' : SlotMap β} {lo : Nat}
    (h : List.Sublist (m'.map Prod.fst) (m.map Prod.fst)) (hm : slotsRise lo m = true) : slotsRise lo m' = true := by
  obtain ⟨hp, hb⟩ := slotsRise_iff.1 hm
  refine slotsRise_iff.2 ⟨hp.sublist h, fun x hx => ?_⟩
  obtain ⟨y, hy, hyx⟩ := List.mem_map.1 (h.subset (List.mem_map_of_mem (f := Prod.fst) hx))
  exact hyx ▸ hb y hy

/-! ### Unique keys -/

/-- Where no key is listed twice, two listed entries of one key stand in one slot. -/
theorem KeysUnique.slot_eq {m : SlotMap Entry} (hu : KeysUnique m) {x y : Nat × Entry} (hx : x ∈ m) (hy : y ∈ m)
    (h : x.2.key = y.2.key) : x = y :=
  List.inj_on_of_nodup_map hu hx hy h

/-- In a rising table the keys are unique where each is read in one slot only. -/
theorem keysUnique_of_slots {m : SlotMap Entry} (hm : workingWf m = true)
    (h : ∀ n n' e e', slotGet m n = some e → slotGet m n' = some e' → e.key = e'.key → n = n') : KeysUnique m := by
  have hnodup : m.Nodup := List.Nodup.of_map Prod.fst ((slotsRise_pairwise hm).imp Nat.ne_of_lt)
  refine hnodup.map_on fun x hx y hy hk => ?_
  have hx' := slotGet_of_mem hm hx
  have hy' := slotGet_of_mem hm hy
  have hn : x.1 = y.1 := h _ _ _ _ hx' hy' hk
  rw [hn] at hx'
  exact Prod.ext hn (Option.some.inj (hx'.symm.trans hy'))

/-- The entry of a key is the one listed with it. -/
theorem entryAt_iff {m : SlotMap Entry} (hu : KeysUnique m) {k : Key} {e : Entry} :
    entryAt m k = some e ↔ e ∈ m.map Prod.snd ∧ e.key = k := by
  refine ⟨entryAt_some, ?_⟩
  rintro ⟨he, rfl⟩
  exact entryAt_of_mem hu he

theorem mem_snd {m : SlotMap Entry} {e : Entry} : e ∈ m.map Prod.snd ↔ ∃ n, (n, e) ∈ m := by
  simp

/-- The entry of a key in a rising table is the one that some slot reads. -/
theorem entryAt_iff_slotGet {m : SlotMap Entry} (hm : workingWf m = true) (hu : KeysUnique m) {k : Key} {e : Entry} :
    entryAt m k = some e ↔ ∃ n, slotGet m n = some e ∧ e.key = k := by
  simp only [entryAt_iff hu, mem_snd, mem_iff_slotGet hm, exists_and_right]

theorem entryAt_of_findEntry {m : SlotMap Entry} {k : Key} {n : Nat} {e : Entry} (h : findEntry m k = some (n, e)) :
    entryAt m k = some e := by
  simp [entryAt, h]

/-- What a key resolves to rests on the entries of two keys alone. -/
theorem resolve_congr {m m' : SlotMap Entry} {k : Key} (h : entryAt m' k = entryAt m k)
    (hb : entryAt m' k.base = entryAt m k.base) : resolve m' k = resolve m k := by
  simp only [resolve, h, hb]

/-- What resolves is listed, under the key or its base. -/
theorem resolve_some {m : SlotMap Entry} {k : Key} {e : Entry} (h : resolve m k = some e) :
    e ∈ m.map Prod.snd ∧ (e.key = k ∨ e.key = k.base) := by
  unfold resolve at h
  split at h
  · next e' he => cases h; exact ⟨(entryAt_some he).1, .inl (entryAt_some he).2⟩
  · split at h
    · cases h
    · exact ⟨(entryAt_some h).1, .inr (entryAt_some h).2⟩

end Sys2Proof.Machine
end

section
/-! SUPPORT. The table after a completion, slot by slot and key by key (R9, R10). -/

namespace Sys2Proof.Machine

/-! ### What a result leaves -/

/-- What one result of a completion leaves in its slot (R9, R10): nothing where a RETIRE is verified and no partner's
has failed, else the plan's entry, DAMAGED for a RETIRE and for a failure. -/
def resultLeaves (all : List SlotResult) (d : SlotResult) : Option Entry :=
  match d.1.kind with
  | .retire => if d.2 && !mateFailed all d.1 then none else some (d.1.entry none)
  | .set => some (d.1.entry (if d.2 then d.1.body else none))
  | .create => some (d.1.entry (if d.2 then d.1.body else none))

theorem slotGet_applyResult_same {all : List SlotResult} {m : SlotMap Entry} (d : SlotResult)
    (hm : workingWf m = true) : slotGet (applyResult all m d) d.1.slot = resultLeaves all d :=
  applyResult_same d hm

/-- What is left is the plan's entry, with the plan's body or none. -/
theorem resultLeaves_some {all : List SlotResult} {d : SlotResult} {e : Entry} (h : resultLeaves all d = some e) :
    e.key = d.1.key ∧ e.cls = d.1.cls ∧ e.partner = d.1.partner ∧
      (e.body = none ∨ (d.2 = true ∧ d.1.kind ≠ .retire ∧ e.body = d.1.body)) := by
  unfold resultLeaves at h
  split at h
  · split at h
    · cases h
    · cases h; exact ⟨rfl, rfl, rfl, .inl rfl⟩
  all_goals
    next hk =>
    cases h
    refine ⟨rfl, rfl, rfl, ?_⟩
    cases hd : d.2
    · exact .inl rfl
    · exact .inr ⟨rfl, by simp [hk], rfl⟩

/-- A result leaves nothing exactly where it is a verified RETIRE whose partner's has not failed. -/
theorem resultLeaves_none {all : List SlotResult} {d : SlotResult} :
    resultLeaves all d = none ↔ d.1.kind = .retire ∧ d.2 = true ∧ mateFailed all d.1 = false := by
  unfold resultLeaves
  cases hk : d.1.kind <;> simp

/-! ### Slot by slot -/

theorem workingWf_foldl_applyResult {all l : List SlotResult} {m : SlotMap Entry} (hm : workingWf m = true)
    (hl : ∀ d ∈ l, d.1.slot < Config.slotCount) : workingWf (l.foldl (applyResult all) m) = true := by
  induction l generalizing m with
  | nil => exact hm
  | cons d l ih =>
    exact ih (workingWf_applyResult hm (hl d List.mem_cons_self)) fun x hx => hl x (List.mem_cons_of_mem _ hx)

theorem slotGet_foldl_ne {all l : List SlotResult} {m : SlotMap Entry} {n : Nat} (h : ∀ d ∈ l, d.1.slot ≠ n) :
    slotGet (l.foldl (applyResult all) m) n = slotGet m n := by
  induction l generalizing m with
  | nil => rfl
  | cons d l ih =>
    rw [List.foldl_cons, ih fun x hx => h x (List.mem_cons_of_mem _ hx)]
    exact applyResult_ne (h d List.mem_cons_self).symm

theorem slotGet_foldl_of_mem {all l : List SlotResult} {m : SlotMap Entry} {d : SlotResult} (hm : workingWf m = true)
    (hl : ∀ d ∈ l, d.1.slot < Config.slotCount) (hn : (l.map fun d => d.1.slot).Nodup) (hd : d ∈ l) :
    slotGet (l.foldl (applyResult all) m) d.1.slot = resultLeaves all d := by
  induction l generalizing m with
  | nil => cases hd
  | cons x l ih =>
    obtain ⟨hx, hn⟩ := List.nodup_cons.1 hn
    have hm' := workingWf_applyResult (all := all) (d := x) hm (hl x List.mem_cons_self)
    rcases List.mem_cons.1 hd with rfl | hd
    · rw [List.foldl_cons, slotGet_foldl_ne fun y hy he => hx (List.mem_map.2 ⟨y, hy, he⟩)]
      exact slotGet_applyResult_same d hm
    · exact ih hm' (fun y hy => hl y (List.mem_cons_of_mem _ hy)) hn hd

/-- The results of a completion name slots of the array, each once. -/
structure ResultSlots (all : List SlotResult) : Prop where
  nodup : (all.map fun d => d.1.slot).Nodup
  inArray : ∀ d ∈ all, d.1.slot < Config.slotCount

theorem slotGet_applyResults_of_mem {all : List SlotResult} {m : SlotMap Entry} {d : SlotResult}
    (hm : workingWf m = true) (h : ResultSlots all) (hd : d ∈ all) :
    slotGet (applyResults all m) d.1.slot = resultLeaves all d :=
  slotGet_foldl_of_mem hm h.inArray h.nodup hd

theorem slotGet_applyResults_ne {all : List SlotResult} {m : SlotMap Entry} {n : Nat}
    (h : ∀ d ∈ all, d.1.slot ≠ n) : slotGet (applyResults all m) n = slotGet m n :=
  slotGet_foldl_ne h

theorem workingWf_applyResults {all : List SlotResult} {m : SlotMap Entry} (hm : workingWf m = true)
    (hl : ∀ d ∈ all, d.1.slot < Config.slotCount) : workingWf (applyResults all m) = true :=
  workingWf_foldl_applyResult hm hl

/-- What a slot reads after a completion: what its own result leaves, or what it read before. -/
theorem slotGet_applyResults_cases {all : List SlotResult} {m : SlotMap Entry} {n : Nat} {e : Entry}
    (hm : workingWf m = true) (h : ResultSlots all) (he : slotGet (applyResults all m) n = some e) :
    (∃ d ∈ all, d.1.slot = n ∧ resultLeaves all d = some e) ∨
      ((∀ d ∈ all, d.1.slot ≠ n) ∧ slotGet m n = some e) := by
  by_cases hn : ∃ d ∈ all, d.1.slot = n
  · obtain ⟨d, hd, rfl⟩ := hn
    exact .inl ⟨d, hd, rfl, (slotGet_applyResults_of_mem hm h hd).symm.trans he⟩
  · have hn : ∀ d ∈ all, d.1.slot ≠ n := fun d hd hdn => hn ⟨d, hd, hdn⟩
    exact .inr ⟨hn, (slotGet_applyResults_ne hn).symm.trans he⟩

/-! ### Key by key -/

/-- The results of a completion of the table `m`, placed as R79 has it: each key once, each for the slot in which the
table holds its key, or for one that it leaves FREE. -/
structure ResultsPlaced (m : SlotMap Entry) (all : List SlotResult) : Prop extends ResultSlots all where
  keys : (all.map fun d => d.1.key).Nodup
  placed : ∀ d ∈ all, ∀ x ∈ m, x.1 = d.1.slot ↔ x.2.key = d.1.key

variable {m : SlotMap Entry} {all : List SlotResult}

/-- R1 after a completion: no two entries have the same key. -/
theorem ResultsPlaced.keysUnique (h : ResultsPlaced m all) (hm : workingWf m = true) (hu : KeysUnique m) :
    KeysUnique (applyResults all m) := by
  refine keysUnique_of_slots (workingWf_applyResults hm h.inArray) fun n n' e e' he he' hk => ?_
  rcases slotGet_applyResults_cases hm h.toResultSlots he with ⟨d, hd, rfl, hl⟩ | ⟨hn, hl⟩ <;>
    rcases slotGet_applyResults_cases hm h.toResultSlots he' with ⟨d', hd', rfl, hl'⟩ | ⟨hn', hl'⟩
  · have hkd : d.1.key = d'.1.key := (resultLeaves_some hl).1.symm.trans (hk.trans (resultLeaves_some hl').1)
    rw [List.inj_on_of_nodup_map h.keys hd hd' hkd]
  · have := (h.placed d hd _ (mem_of_slotGet hl')).2 (hk.symm.trans (resultLeaves_some hl).1)
    exact absurd this.symm (hn' d hd)
  · have := (h.placed d' hd' _ (mem_of_slotGet hl)).2 (hk.trans (resultLeaves_some hl').1)
    exact absurd this.symm (hn d' hd')
  · exact congrArg Prod.fst (hu.slot_eq (mem_of_slotGet hl) (mem_of_slotGet hl') hk)

/-- The entry of a key that a result names is what that result leaves. -/
theorem ResultsPlaced.entryAt_of_mem (h : ResultsPlaced m all) (hm : workingWf m = true) (hu : KeysUnique m)
    {d : SlotResult} (hd : d ∈ all) : entryAt (applyResults all m) d.1.key = resultLeaves all d := by
  have hm' := workingWf_applyResults hm h.inArray
  ext e
  rw [entryAt_iff_slotGet hm' (h.keysUnique hm hu)]
  constructor
  · rintro ⟨n, he, hk⟩
    rcases slotGet_applyResults_cases hm h.toResultSlots he with ⟨d', hd', -, hl⟩ | ⟨hn, hl⟩
    · rwa [← List.inj_on_of_nodup_map h.keys hd' hd ((resultLeaves_some hl).1.symm.trans hk)]
    · exact absurd ((h.placed d hd _ (mem_of_slotGet hl)).2 hk).symm (hn d hd)
  · exact fun hl => ⟨_, (slotGet_applyResults_of_mem hm h.toResultSlots hd).trans hl, (resultLeaves_some hl).1⟩

/-- A key that no result names has the entry it had. -/
theorem ResultsPlaced.entryAt_ne (h : ResultsPlaced m all) (hm : workingWf m = true) (hu : KeysUnique m) {k : Key}
    (hk : ∀ d ∈ all, d.1.key ≠ k) : entryAt (applyResults all m) k = entryAt m k := by
  have hm' := workingWf_applyResults hm h.inArray
  ext e
  rw [entryAt_iff_slotGet hm' (h.keysUnique hm hu), entryAt_iff_slotGet hm hu]
  constructor
  · rintro ⟨n, he, hek⟩
    rcases slotGet_applyResults_cases hm h.toResultSlots he with ⟨d, hd, -, hl⟩ | ⟨-, hl⟩
    · exact absurd ((resultLeaves_some hl).1.symm.trans hek) (hk d hd)
    · exact ⟨n, hl, hek⟩
  · rintro ⟨n, he, rfl⟩
    have hn : ∀ d ∈ all, d.1.slot ≠ n := fun d hd hdn =>
      hk d hd ((h.placed d hd _ (mem_of_slotGet he)).1 hdn.symm).symm
    exact ⟨n, (slotGet_applyResults_ne hn).trans he, rfl⟩

/-- Whatever is read of the slot writes is read of them as the table takes them. -/
theorem tableResults_map {β : Type} (f : SlotPlan → β) (freed : List Nat) (all : List SlotResult) :
    ((tableResults freed all).map fun d => f d.1) = all.map fun d => f d.1 := by
  simpa only [List.map_map, Function.comp_def] using congrArg (List.map f) (tableResults_plans freed all)

/-- The results that the table applies are placed as those of the writes. -/
theorem ResultsPlaced.tableResults (h : ResultsPlaced m all) (freed : List Nat) :
    ResultsPlaced m (tableResults freed all) := by
  have hmem : ∀ d ∈ Machine.tableResults freed all, ∃ d' ∈ all, d'.1 = d.1 := by
    intro d hd
    have : d.1 ∈ all.map Prod.fst := tableResults_plans freed all ▸ List.mem_map_of_mem hd
    simpa using this
  refine ⟨⟨(tableResults_map SlotPlan.slot freed all).symm ▸ h.nodup, fun d hd => ?_⟩, (tableResults_map SlotPlan.key freed all).symm ▸ h.keys, fun d hd => ?_⟩
  · obtain ⟨d', hd', he⟩ := hmem d hd
    exact he ▸ h.inArray d' hd'
  · obtain ⟨d', hd', he⟩ := hmem d hd
    exact he ▸ h.placed d' hd'

end Sys2Proof.Machine
end

section
/-! SUPPORT. The expected pairs: a pair computed whole is the sum of the contributions of all parameters (R27, R28), and
the correction at a completion leaves each pair the one computed whole (R33). -/

namespace Sys2Proof.Machine

/-! ### A pair as a sum over the parameters -/

/-- Two sums whose terms differ at one place alone. -/
theorem sum_add_of_eq_off {ι M : Type} [Fintype ι] [DecidableEq ι] [AddCommMonoid M] {F G : ι → M} {a : ι}
    (h : ∀ p, p ≠ a → G p = F p) : ∑ p, G p + F a = ∑ p, F p + G a := by
  rw [← Finset.sum_erase_add Finset.univ G (Finset.mem_univ a), ← Finset.sum_erase_add Finset.univ F (Finset.mem_univ a),
    Finset.sum_congr rfl fun p hp => h p (Finset.ne_of_mem_erase hp)]
  exact add_right_comm _ _ _

/-- The entries of station `st` that resolve in format `f`. -/
def resolving (m : SlotMap Entry) (st : StationNo) (f : FormatNo) : SlotMap Entry :=
  m.filter fun e => e.2.key.station == st && resolve m ⟨st, f, e.2.key.param⟩ == some e.2

theorem mem_resolving {m : SlotMap Entry} {st : StationNo} {f : FormatNo} {x : Nat × Entry} :
    x ∈ resolving m st f ↔ x ∈ m ∧ x.2.key.station = st ∧ resolve m ⟨st, f, x.2.key.param⟩ = some x.2 := by
  simp [resolving]

/-- No two of the entries that resolve are of one parameter. -/
theorem resolving_params_nodup {m : SlotMap Entry} (hu : KeysUnique m) (st : StationNo) (f : FormatNo) :
    ((resolving m st f).map fun x => x.2.key.param).Nodup := by
  refine ((List.Nodup.of_map _ hu).filter _).map_on fun x hx y hy hp => ?_
  obtain ⟨hxm, -, hxr⟩ := mem_resolving.1 hx
  obtain ⟨hym, -, hyr⟩ := mem_resolving.1 hy
  rw [hp] at hxr
  exact hu.slot_eq hxm hym (congrArg Entry.key (Option.some.inj (hxr.symm.trans hyr)))

/-- A parameter that resolves to an entry is among the parameters of the entries that resolve. -/
theorem param_mem_resolving {m : SlotMap Entry} {st : StationNo} {f : FormatNo} {p : ParamNo} {e : Entry}
    (h : resolve m ⟨st, f, p⟩ = some e) : p ∈ (resolving m st f).map fun x => x.2.key.param := by
  obtain ⟨he, hk⟩ := resolve_some h
  obtain ⟨n, hn⟩ := mem_snd.1 he
  have hst : e.key.station = st := by rcases hk with hk | hk <;> simp [hk, Key.base]
  have hp : e.key.param = p := by rcases hk with hk | hk <;> simp [hk, Key.base]
  exact List.mem_map.2 ⟨(n, e), mem_resolving.2 ⟨hn, hst, hp.symm ▸ h⟩, hp⟩

/-- A sum over the entries that resolve is the sum over all parameters of what each contributes. -/
theorem sum_resolving {M : Type} [AddCommMonoid M] (g : DigestPair → M) (hg : g ⟨0, 0⟩ = 0) {m : SlotMap Entry}
    (hu : KeysUnique m) (st : StationNo) (f : FormatNo) :
    ((resolving m st f).map fun x => g (entryContribution x.2.key.param (some x.2))).sum =
      ∑ p, g (contribution m st f p) := by
  have hmap : ((resolving m st f).map fun x => g (entryContribution x.2.key.param (some x.2))) =
      ((resolving m st f).map fun x => x.2.key.param).map fun p => g (contribution m st f p) := by
    rw [List.map_map]
    refine List.map_congr_left fun x hx => ?_
    simp only [Function.comp_apply, contribution, (mem_resolving.1 hx).2.2]
  rw [hmap, ← List.sum_toFinset _ (resolving_params_nodup hu st f)]
  refine Finset.sum_subset (Finset.subset_univ _) fun p _ hp => ?_
  cases hr : resolve m ⟨st, f, p⟩ with
  | none => simp only [contribution, hr]; exact hg
  | some e => exact absurd (List.mem_toFinset.2 (param_mem_resolving hr)) hp

theorem foldl_pair {α : Type} (g : α → DigestPair) (l : List α) (d : DigestPair) :
    l.foldl (fun d x => ⟨d.digest + (g x).digest, d.count + (g x).count⟩) d =
      ⟨d.digest + (l.map fun x => (g x).digest).sum, d.count + (l.map fun x => (g x).count).sum⟩ := by
  induction l generalizing d with
  | nil => simp
  | cons x l ih => rw [List.foldl_cons, ih]; simp [add_assoc]

/-- R27 and R28: the pair computed whole is the sum of what the parameters contribute. -/
theorem computePair_eq_sum {m : SlotMap Entry} (hu : KeysUnique m) (st : StationNo) (f : FormatNo) :
    computePair m st f =
      ⟨∑ p, (contribution m st f p).digest, ∑ p, (contribution m st f p).count⟩ := by
  have h := foldl_pair (fun x : Nat × Entry => entryContribution x.2.key.param (some x.2)) (resolving m st f) ⟨0, 0⟩
  simp only [zero_add] at h
  rw [sum_resolving DigestPair.digest rfl hu, sum_resolving DigestPair.count rfl hu] at h
  exact h

/-! ### The correction -/

/-- Where of the parameters in `done` the contribution is the one after, of the others the one before. -/
def halfCorrected (before after : SlotMap Entry) (done : List (StationNo × ParamNo)) (st : StationNo) (f : FormatNo)
    (p : ParamNo) : DigestPair :=
  if (st, p) ∈ done then contribution after st f p else contribution before st f p

/-- A pair that is a sum, corrected for one of its terms, is the sum with that term. -/
theorem correct_sum {F G : ParamNo → DigestPair} {a : ParamNo} (h : ∀ p, p ≠ a → G p = F p) :
    DigestPair.correct ⟨∑ p, (F p).digest, ∑ p, (F p).count⟩ (F a) (G a) =
      ⟨∑ p, (G p).digest, ∑ p, (G p).count⟩ := by
  have hd := sum_add_of_eq_off (F := fun p => (F p).digest) (G := fun p => (G p).digest) (a := a)
    fun p hp => congrArg _ (h p hp)
  have hc := sum_add_of_eq_off (F := fun p => (F p).count) (G := fun p => (G p).count) (a := a)
    fun p hp => congrArg _ (h p hp)
  simp only [DigestPair.correct, DigestPair.mk.injEq]
  refine ⟨?_, by omega⟩
  rw [eq_comm, ← add_right_cancel_iff (a := (F a).digest), hd]
  ring

theorem halfCorrected_append {before after : SlotMap Entry} {done : List (StationNo × ParamNo)} {t : StationNo × ParamNo}
    (f : FormatNo) {st : StationNo} {p : ParamNo} (h : (st, p) ≠ t) :
    halfCorrected before after (done ++ [t]) st f p = halfCorrected before after done st f p := by
  simp [halfCorrected, h]

theorem correctDigests_append (before after : SlotMap Entry) (done : List (StationNo × ParamNo))
    (t : StationNo × ParamNo) (d : Bank 32 (Bank 15 DigestPair)) :
    correctDigests before after (done ++ [t]) d = correctFor before after (correctDigests before after done d) t := by
  simp [correctDigests]

theorem correctFor_sel (before after : SlotMap Entry) (d : Bank 32 (Bank 15 DigestPair)) (t : StationNo × ParamNo)
    (st : StationNo) (i : Fin 15) :
    sel (sel (correctFor before after d t) st) i =
      if st = t.1 then
        (sel (sel d t.1) i).correct (contribution before t.1 (productFormat i) t.2)
          (contribution after t.1 (productFormat i) t.2)
      else sel (sel d st) i := by
  rw [correctFor, sel_upd]
  split
  · rw [sel_each]
  · rfl

/-- The digest table after the correction for some parameters, each once: every pair is the sum of the corrected
contributions. -/
theorem correctDigests_sum (before after : SlotMap Entry) (hu : KeysUnique before)
    (done : List (StationNo × ParamNo)) (hn : done.Nodup) (st : StationNo) (i : Fin 15) :
    sel (sel (correctDigests before after done (rebuildDigests before)) st) i =
      ⟨∑ p, (halfCorrected before after done st (productFormat i) p).digest,
        ∑ p, (halfCorrected before after done st (productFormat i) p).count⟩ := by
  induction done using List.reverseRecOn with
  | nil =>
    simp only [correctDigests, List.foldl_nil, halfCorrected, List.not_mem_nil, if_false]
    rw [← computePair_eq_sum hu]
    simp [rebuildDigests, sel]
  | append_singleton done t ih =>
    obtain ⟨hdone, -, hdisj⟩ := List.nodup_append.1 hn
    have ht : t ∉ done := fun h => hdisj t h t (by simp) rfl
    have ih := ih hdone
    rw [correctDigests_append, correctFor_sel]
    split
    · next hst =>
      subst hst
      rw [ih]
      have hold : contribution before t.1 (productFormat i) t.2 =
          halfCorrected before after done t.1 (productFormat i) t.2 := (if_neg ht).symm
      have hnew : contribution after t.1 (productFormat i) t.2 =
          halfCorrected before after (done ++ [t]) t.1 (productFormat i) t.2 := (if_pos (by simp)).symm
      rw [hold, hnew]
      exact correct_sum fun p hp => halfCorrected_append _ fun he => hp (congrArg Prod.snd he)
    · next hst =>
      rw [ih]
      simp only [halfCorrected_append (before := before) (after := after) (done := done) (productFormat i)
        (fun he : (st, _) = t => hst (congrArg Prod.fst he))]

/-- The correction for every parameter whose contribution differs leaves the digest table computed whole. -/
theorem correctDigests_rebuild {before after : SlotMap Entry} (hu : KeysUnique before) (hu' : KeysUnique after)
    {done : List (StationNo × ParamNo)} (hn : done.Nodup)
    (h : ∀ st p, (st, p) ∉ done → ∀ f, contribution after st f p = contribution before st f p) :
    correctDigests before after done (rebuildDigests before) = rebuildDigests after := by
  refine bank_ext fun st => bank_ext fun i => ?_
  rw [correctDigests_sum before after hu done hn]
  have hall : ∀ p, halfCorrected before after done st (productFormat i) p =
      contribution after st (productFormat i) p := by
    intro p
    unfold halfCorrected
    split
    · rfl
    · next hp => exact (h st p hp _).symm
  simp only [hall]
  rw [← computePair_eq_sum hu']
  simp [rebuildDigests, sel]

/-- R33: after a completion whose results are placed as R79 has it, the corrected digests are those computed whole. -/
theorem ResultsPlaced.correctDigests {m : SlotMap Entry} {all : List SlotResult} (h : ResultsPlaced m all)
    (hm : workingWf m = true) (hu : KeysUnique m) :
    correctDigests m (applyResults all m) (targetsOf (all.map fun d => d.1.key)) (rebuildDigests m) =
      rebuildDigests (applyResults all m) := by
  refine correctDigests_rebuild hu (h.keysUnique hm hu) (List.nodup_dedup _) fun st p hp f => ?_
  have hne : ∀ k : Key, k.station = st → k.param = p →
      entryAt (applyResults all m) k = entryAt m k := by
    rintro k rfl rfl
    refine h.entryAt_ne hm hu fun d hd hk => hp ?_
    simp only [targetsOf, List.mem_dedup, List.mem_map]
    exact ⟨k, ⟨d, hd, hk⟩, rfl⟩
  exact congrArg (entryContribution p) (resolve_congr (hne _ rfl rfl) (hne _ rfl rfl))

end Sys2Proof.Machine
end

section
/-! SUPPORT. The slot writes that are formed for a proposal's changes: slot, header and body of each (R6, R48, R79). -/

namespace Sys2Proof.Machine

/-! ### Revisions -/

/-- A revision is never 0 (R6). -/
theorem nextRevision_ne_zero (r : Half) : nextRevision r ≠ 0 := by
  unfold nextRevision
  split
  · decide
  · next h => intro h0; apply h; bv_omega

theorem maxRevision_comm (a b : Half) : maxRevision a b = maxRevision b a := by
  unfold maxRevision
  split
  · next h => rw [if_neg (by omega)]
  · split
    · rfl
    · exact BitVec.eq_of_toNat_eq (by omega)

/-- The partner of a change is found where its key is listed once. -/
theorem pairMate_of_mem {m : SlotMap Entry} {all : List Change} {c d : Change} {q : ParamNo}
    (hn : (keysOf all).Nodup) (hq : partnerOf m c = some q) (hd : d ∈ all) (hk : d.key = { c.key with param := q })
    (hkind : d.kind = c.kind) : pairMate m all c = some d := by
  simp only [pairMate, hq]
  cases hf : all.find? fun d => d.key == { c.key with param := q } && d.kind == c.kind with
  | none => exact absurd (List.find?_eq_none.1 hf d hd) (by simp [hk, hkind])
  | some d' =>
    have hd' := List.find?_some hf
    simp only [Bool.and_eq_true, beq_iff_eq] at hd'
    rw [List.inj_on_of_nodup_map hn (List.mem_of_find?_eq_some hf) hd (hd'.1.trans hk.symm)]

/-- The two SETs of a pair give one revision (R6). -/
theorem setRevision_pair {m : SlotMap Entry} {all : List Change} {c d : Change}
    (hc : pairMate m all c = some d) (hd : pairMate m all d = some c) :
    setRevision m all c = setRevision m all d := by
  simp only [setRevision, hc, hd]
  rw [maxRevision_comm]

theorem setRevision_ne_zero (m : SlotMap Entry) (all : List Change) (c : Change) : setRevision m all c ≠ 0 := by
  unfold setRevision
  split <;> exact nextRevision_ne_zero _

/-! ### One slot write -/

/-- The revision that a change gives (R6). -/
def plannedRevision (m : SlotMap Entry) (all : List Change) (c : Change) : Half :=
  match c.kind with
  | .create => 1
  | .set => setRevision m all c
  | .retire => setRevision m all c

theorem plannedRevision_ne_zero (m : SlotMap Entry) (all : List Change) (c : Change) :
    plannedRevision m all c ≠ 0 := by
  unfold plannedRevision
  split
  · decide
  all_goals exact setRevision_ne_zero m all c

/-- The slot write `p` is for the change `c`: its key, kind and partner; the slot of its entry, or a FREE one for a
CREATE; and the body that the change gives, none for a RETIRE. -/
structure PlannedFor (m : SlotMap Entry) (all : List Change) (c : Change) (p : SlotPlan) : Prop where
  key : p.key = c.key
  kind : p.kind = c.kind
  partner : p.partner = partnerOf m c
  stands : c.kind ≠ .create → ∃ e, (p.slot, e) ∈ m ∧ e.key = c.key ∧ e.partner = p.partner
  free : c.kind = .create → p.slot ∉ m.map Prod.fst
  inArray : c.kind = .create → p.slot < Config.slotCount
  body : ∀ b, p.body = some b →
    c.effective m = some (b.low, b.high, b.value) ∧ b.revision = plannedRevision m all c

theorem PlannedFor.set {m : SlotMap Entry} (all : List Change) {k : Key} {n : Nat} {e : Entry} (x : Half) (v : Word)
    (low high : BoundField) (t : Option Half) (h : findEntry m k = some (n, e)) :
    PlannedFor m all (.set k x v low high t)
      ⟨.set, n, k, e.cls, e.partner,
        some ⟨v, low.after (e.body.bind Body.low), high.after (e.body.bind Body.high),
          t.getD ((e.body.map Body.tolerance).getD 0), setRevision m all (.set k x v low high t)⟩⟩ where
  key := rfl
  kind := rfl
  partner := by simp [partnerOf, entryAt_of_findEntry h]
  stands _ := ⟨e, (findEntry_mem h).1, (findEntry_mem h).2, rfl⟩
  free := by simp [Change.kind]
  inArray := by simp [Change.kind]
  body b hb := by
    cases hb
    exact ⟨by simp [Change.effective, entryAt_of_findEntry h], rfl⟩

theorem PlannedFor.create {m : SlotMap Entry} (all : List Change) {n : Nat} (k : Key) (v : Word)
    (low high : BoundField) (t : Option Half) (cls : EntryClass) (q : Option ParamNo) (hn : n ∉ m.map Prod.fst)
    (ha : n < Config.slotCount) :
    PlannedFor m all (.create k v low high t cls q)
      ⟨.create, n, k, cls, q, some ⟨v, low.after none, high.after none, t.getD 0, 1⟩⟩ where
  key := rfl
  kind := rfl
  partner := rfl
  stands h := absurd rfl h
  free _ := hn
  inArray _ := ha
  body b hb := by cases hb; exact ⟨rfl, rfl⟩

theorem PlannedFor.retire {m : SlotMap Entry} (all : List Change) {k : Key} {n : Nat} {e : Entry} (x : Half)
    (h : findEntry m k = some (n, e)) :
    PlannedFor m all (.retire k x) ⟨.retire, n, k, e.cls, e.partner, none⟩ where
  key := rfl
  kind := rfl
  partner := by simp [partnerOf, entryAt_of_findEntry h]
  stands _ := ⟨e, (findEntry_mem h).1, (findEntry_mem h).2, rfl⟩
  free := by simp [Change.kind]
  inArray := by simp [Change.kind]
  body b hb := by cases hb

/-! ### The slot writes of a proposal -/

/-- The slot writes are those of the changes, in order, and no CREATE of them takes a slot of `taken`. -/
structure PlansFor (m : SlotMap Entry) (all : List Change) (taken : List Nat) (l : List Change)
    (plans : List SlotPlan) : Prop where
  each : List.Forall₂ (PlannedFor m all) l plans
  untaken : ∀ p ∈ plans, p.kind = .create → p.slot ∉ taken
  slots : (plans.map SlotPlan.slot).Nodup

/-- Every slot write is one of a change. -/
theorem PlansFor.change {m : SlotMap Entry} {all l : List Change} {taken : List Nat} {plans : List SlotPlan}
    (h : PlansFor m all taken l plans) {p : SlotPlan} (hp : p ∈ plans) : ∃ c ∈ l, PlannedFor m all c p := by
  obtain ⟨hl, hg⟩ := List.forall₂_iff_get.1 h.each
  obtain ⟨i, hi, rfl⟩ := List.mem_iff_getElem.1 hp
  exact ⟨_, List.getElem_mem (hl ▸ hi), hg i (hl ▸ hi) hi⟩

/-- Every change has its slot write. -/
theorem PlansFor.plan {m : SlotMap Entry} {all l : List Change} {taken : List Nat} {plans : List SlotPlan}
    (h : PlansFor m all taken l plans) {c : Change} (hc : c ∈ l) : ∃ p ∈ plans, PlannedFor m all c p := by
  obtain ⟨hl, hg⟩ := List.forall₂_iff_get.1 h.each
  obtain ⟨i, hi, rfl⟩ := List.mem_iff_getElem.1 hc
  exact ⟨_, List.getElem_mem (hl ▸ hi), hg i hi (hl ▸ hi)⟩

/-- The slot writes have the keys of the changes. -/
theorem PlansFor.keys {m : SlotMap Entry} {all l : List Change} {taken : List Nat} {plans : List SlotPlan}
    (h : PlansFor m all taken l plans) : plans.map SlotPlan.key = keysOf l := by
  have := h.each
  clear h
  induction this with
  | nil => rfl
  | cons hcp _ ih => simp only [keysOf, List.map_cons, hcp.key]; exact congrArg _ ih

/-- A slot write joins those of the later changes. -/
theorem PlansFor.cons {m : SlotMap Entry} {all l : List Change} {taken taken' : List Nat} {plans : List SlotPlan}
    {c : Change} {p : SlotPlan} (h : PlansFor m all taken' l plans) (hc : PlannedFor m all c p)
    (hsub : ∀ n ∈ taken, n ∈ taken') (hun : p.kind = .create → p.slot ∉ taken)
    (hne : ∀ q ∈ plans, q.slot ≠ p.slot) : PlansFor m all taken (c :: l) (p :: plans) where
  each := .cons hc h.each
  untaken := by
    intro q hq hk
    rcases List.mem_cons.1 hq with rfl | hq
    · exact hun hk
    · exact fun hs => h.untaken q hq hk (hsub _ hs)
  slots := List.nodup_cons.2 ⟨fun hs => by
    obtain ⟨q, hq, hqp⟩ := List.mem_map.1 hs
    exact hne q hq hqp, h.slots⟩

/-- The slot of an entry whose key the later changes do not name is none of theirs. -/
theorem PlansFor.slot_ne {m : SlotMap Entry} {all l : List Change} {taken : List Nat} {plans : List SlotPlan}
    (h : PlansFor m all taken l plans) (hm : workingWf m = true) (htaken : ∀ n ∈ m.map Prod.fst, n ∈ taken) {n : Nat}
    {e : Entry} (he : (n, e) ∈ m) (hk : e.key ∉ keysOf l) {q : SlotPlan} (hq : q ∈ plans) : q.slot ≠ n := by
  rintro rfl
  obtain ⟨c, hc, hcq⟩ := h.change hq
  by_cases hcreate : c.kind = .create
  · exact h.untaken q hq (hcq.kind.trans hcreate) (htaken _ (List.mem_map_of_mem (f := Prod.fst) he))
  · obtain ⟨e', he', hk', -⟩ := hcq.stands hcreate
    have hee : e' = e := Option.some.inj ((slotGet_of_mem hm he').symm.trans (slotGet_of_mem hm he))
    exact hk (hee ▸ hk' ▸ List.mem_map_of_mem hc)

/-- R79: the slot writes formed for changes whose keys are distinct. -/
theorem planSlots_spec {m : SlotMap Entry} {all l : List Change} {taken : List Nat} {plans : List SlotPlan}
    (hm : workingWf m = true) (hl : (keysOf l).Nodup) (htaken : ∀ n ∈ m.map Prod.fst, n ∈ taken)
    (h : planSlots m all taken l = some plans) : PlansFor m all taken l plans := by
  induction l generalizing taken plans with
  | nil => cases h; exact ⟨.nil, by simp, .nil⟩
  | cons c l ih =>
    obtain ⟨hc, hrest⟩ := List.nodup_cons.1 hl
    have hentry : ∀ {n e k}, findEntry m k = some (n, e) → k ∉ keysOf l → ∀ {rest}, PlansFor m all taken l rest →
        ∀ q ∈ rest, q.slot ≠ n := by
      intro n e k hf hk rest hr q hq
      exact hr.slot_ne hm htaken (findEntry_mem hf).1 ((findEntry_mem hf).2 ▸ hk) hq
    cases c with
    | set k x v low high t =>
      simp only [planSlots] at h
      split at h
      · cases h
      · next n e hf =>
        obtain ⟨rest, hr, rfl⟩ := Option.map_eq_some_iff.1 h
        have hr := ih hrest htaken hr
        exact hr.cons (.set all x v low high t hf) (fun _ hn => hn) (by simp) (hentry hf hc hr)
    | create k v low high t cls q =>
      simp only [planSlots] at h
      split at h
      · cases h
      · next n hn =>
        obtain ⟨rest, hr, rfl⟩ := Option.map_eq_some_iff.1 h
        obtain ⟨-, hlt, hfree, -⟩ := lowestFree_spec hn
        have hr := ih hrest (fun j hj => List.mem_cons_of_mem n (htaken j hj)) hr
        refine hr.cons (.create all k v low high t cls q (fun hm => hfree (htaken n hm)) (by omega))
          (fun _ hn => List.mem_cons_of_mem _ hn) (fun _ => hfree) fun p hp hpn => ?_
        obtain ⟨c', hc', hcp⟩ := hr.change hp
        by_cases hcreate : c'.kind = .create
        · exact hr.untaken p hp (hcp.kind.trans hcreate) (hpn ▸ List.mem_cons_self)
        · obtain ⟨e, he, -⟩ := hcp.stands hcreate
          have hslot := List.mem_map_of_mem (f := Prod.fst) he
          rw [hpn] at hslot
          exact hfree (htaken n hslot)
    | retire k x =>
      simp only [planSlots] at h
      split at h
      · cases h
      · next n e hf =>
        obtain ⟨rest, hr, rfl⟩ := Option.map_eq_some_iff.1 h
        have hr := ih hrest htaken hr
        exact hr.cons (.retire all x hf) (fun _ hn => hn) (by simp) (hentry hf hc hr)

end Sys2Proof.Machine
end

section
/-! SUPPORT. What a completion keeps of the table's laws: partners (R7), and bounds, values and revisions (R5, R6). -/

namespace Sys2Proof.Machine

/-! ### A body in order -/

/-- R5 and R6 of a body: its bounds are in order, its value lies within those present, and its revision is not 0. -/
def Body.InOrder (b : Body) : Prop :=
  (∀ lo hi, b.low = some lo → b.high = some hi → lo.toInt ≤ hi.toInt) ∧
    (∀ lo, b.low = some lo → lo.toInt ≤ b.value.toInt) ∧ (∀ hi, b.high = some hi → b.value.toInt ≤ hi.toInt) ∧
    b.revision ≠ 0

theorem boundsOrdered_iff {low high : Option Word} :
    boundsOrdered low high = true ↔ ∀ lo hi, low = some lo → high = some hi → lo.toInt ≤ hi.toInt := by
  cases low <;> cases high <;> simp [boundsOrdered]

theorem aboveLow_iff {low : Option Word} {v : Word} :
    aboveLow low v = true ↔ ∀ lo, low = some lo → lo.toInt ≤ v.toInt := by
  cases low <;> simp [aboveLow]

theorem belowHigh_iff {high : Option Word} {v : Word} :
    belowHigh high v = true ↔ ∀ hi, high = some hi → v.toInt ≤ hi.toInt := by
  cases high <;> simp [belowHigh]

/-- A body whose check agrees reads as valid where it is in order (R72). -/
theorem body_ok_iff {b : Body} : b.ok = true ↔ b.InOrder := by
  simp only [Body.ok, Body.InOrder, Bool.and_eq_true, boundsOrdered_iff, aboveLow_iff, belowHigh_iff, bne_iff_ne,
    and_assoc]

/-- Every ACTIVE entry of the table has its body in order (R5, R6). -/
def BodiesInOrder (m : SlotMap Entry) : Prop :=
  ∀ e ∈ m.map Prod.snd, ∀ b, e.body = some b → b.InOrder

theorem key_ext {k k' : Key} (hs : k.station = k'.station) (hf : k.format = k'.format) (hp : k.param = k'.param) :
    k = k' := by
  cases k; cases k'; simp_all

/-! ### The completion of a proposal's changes -/

/-- The results are of the slot writes formed from the table `m` for the changes `l`, which fit the table. -/
structure CompletionOf (m : SlotMap Entry) (l : List Change) (all : List SlotResult) : Prop where
  plans : PlansFor m l (m.map Prod.fst) l (all.map Prod.fst)
  keys : (keysOf l).Nodup
  fit : ChangesFit m l

namespace CompletionOf

variable {m : SlotMap Entry} {l : List Change} {all : List SlotResult}

theorem change (h : CompletionOf m l all) {d : SlotResult} (hd : d ∈ all) : ∃ c ∈ l, PlannedFor m l c d.1 :=
  h.plans.change (List.mem_map_of_mem hd)

theorem result (h : CompletionOf m l all) {c : Change} (hc : c ∈ l) : ∃ d ∈ all, PlannedFor m l c d.1 := by
  obtain ⟨p, hp, hcp⟩ := h.plans.plan hc
  obtain ⟨d, hd, rfl⟩ := List.mem_map.1 hp
  exact ⟨d, hd, hcp⟩

theorem keys_nodup (h : CompletionOf m l all) : (all.map fun d => d.1.key).Nodup := by
  have hk : ((all.map Prod.fst).map SlotPlan.key).Nodup := by rw [h.plans.keys]; exact h.keys
  simpa only [List.map_map, Function.comp_def] using hk

/-- R79: every slot write stands where its key stands, or in a slot left FREE. -/
theorem placed (h : CompletionOf m l all) (hm : workingWf m = true) (hu : KeysUnique m) : ResultsPlaced m all where
  nodup := by simpa only [List.map_map, Function.comp_def] using h.plans.slots
  inArray := by
    intro d hd
    obtain ⟨c, -, hcd⟩ := h.change hd
    by_cases hk : c.kind = .create
    · exact hcd.inArray hk
    · obtain ⟨e, he, -⟩ := hcd.stands hk
      exact slotsRise_lt hm _ he
  keys := h.keys_nodup
  placed := by
    intro d hd x hx
    obtain ⟨c, hc, hcd⟩ := h.change hd
    obtain ⟨hcreate, -⟩ := h.fit c hc
    by_cases hk : c.kind = .create
    · refine ⟨fun hs => absurd (hs ▸ List.mem_map_of_mem hx) (hcd.free hk), fun hkey => ?_⟩
      exact absurd (hkey.trans hcd.key) (entryAt_none.1 (hcreate.1 hk) _ (List.mem_map_of_mem hx))
    · obtain ⟨e, he, hek, -⟩ := hcd.stands hk
      constructor
      · intro hs
        have : x.2 = e :=
          Option.some.inj ((slotGet_of_mem hm (n := x.1) hx).symm.trans (slotGet_of_mem hm (hs ▸ he)))
        rw [this, hek, hcd.key]
      · intro hkey
        rw [hu.slot_eq hx he (hkey.trans (hcd.key.trans hek.symm))]

/-- The results as the table applies them are of the same slot writes. -/
theorem tableResults (h : CompletionOf m l all) (freed : List Nat) : CompletionOf m l (tableResults freed all) :=
  ⟨by rw [tableResults_plans]; exact h.plans, h.keys, h.fit⟩

/-! ### R5 and R6 -/

/-- The body of a slot write that fits the table is in order. -/
theorem body_inOrder (h : CompletionOf m l all) {d : SlotResult} (hd : d ∈ all) {b : Body} (hb : d.1.body = some b) :
    b.InOrder := by
  obtain ⟨c, hc, hcd⟩ := h.change hd
  obtain ⟨heff, hrev⟩ := hcd.body b hb
  obtain ⟨-, hbounds, -⟩ := h.fit c hc
  obtain ⟨hord, hlow, hhigh⟩ := hbounds _ _ _ heff
  exact ⟨hord, hlow, hhigh, hrev ▸ plannedRevision_ne_zero m l c⟩

theorem bodiesInOrder (h : CompletionOf m l all) (hm : workingWf m = true) (hu : KeysUnique m)
    (hb : BodiesInOrder m) : BodiesInOrder (applyResults all m) := by
  intro e he b hbody
  obtain ⟨n, he⟩ := mem_snd.1 he
  have hplaced := h.placed hm hu
  have hget := slotGet_of_mem (workingWf_applyResults hm hplaced.inArray) he
  rcases slotGet_applyResults_cases hm hplaced.toResultSlots hget with ⟨d, hd, -, hl⟩ | ⟨-, hl⟩
  · obtain ⟨-, -, -, hnone | ⟨-, -, hsame⟩⟩ := resultLeaves_some hl
    · rw [hnone] at hbody; cases hbody
    · exact h.body_inOrder hd (hsame ▸ hbody)
  · exact hb e (mem_snd.2 ⟨n, mem_of_slotGet hl⟩) b hbody

/-! ### R7 -/

/-- The result of the partner's change: its key, kind and partner, and its revision. -/
theorem mate (h : CompletionOf m l all) {d : SlotResult} (hd : d ∈ all) {q : ParamNo} (hq : d.1.partner = some q) :
    ∃ d' ∈ all, d'.1.key = { d.1.key with param := q } ∧ d'.1.kind = d.1.kind ∧
      d'.1.partner = some d.1.key.param ∧
      ∀ b b', d.1.body = some b → d'.1.body = some b' → b.revision = b'.revision := by
  obtain ⟨c, hc, hcd⟩ := h.change hd
  obtain ⟨-, -, hpartner⟩ := h.fit c hc
  obtain ⟨c', hc', hkey, hkind, hback⟩ := hpartner q (hcd.partner ▸ hq)
  obtain ⟨d', hd', hcd'⟩ := h.result hc'
  refine ⟨d', hd', by rw [hcd'.key, hkey, hcd.key], by rw [hcd'.kind, hkind, hcd.kind], by
    rw [hcd'.partner, hback, hcd.key], fun b b' hb hb' => ?_⟩
  rw [(hcd.body b hb).2, (hcd'.body b' hb').2]
  have hmate := pairMate_of_mem h.keys (hcd.partner ▸ hq) hc' hkey hkind
  have hmate' := pairMate_of_mem h.keys hback hc (by rw [hkey]) hkind.symm
  unfold plannedRevision
  rw [hkind]
  split
  · rfl
  all_goals exact setRevision_pair hmate hmate'

/-- Two results of a pair leave an entry both or neither (R10). -/
theorem mate_leaves (h : CompletionOf m l all) {d d' : SlotResult} (hd : d ∈ all) (hd' : d' ∈ all)
    (hkey : d'.1.key = { d.1.key with param := d'.1.key.param }) (hkind : d'.1.kind = d.1.kind)
    (hq : d.1.partner = some d'.1.key.param) (hq' : d'.1.partner = some d.1.key.param)
    (hl : resultLeaves all d ≠ none) : resultLeaves all d' ≠ none := by
  have hmates : d.1.mates d'.1 = true := by
    simp only [SlotPlan.mates, hq, hq', Bool.and_eq_true, beq_iff_eq]
    exact ⟨⟨⟨by rw [hkey], by rw [hkey]⟩, trivial⟩, trivial⟩
  intro hnone
  obtain ⟨hretire, hok, hfail⟩ := resultLeaves_none.1 hnone
  have hdok : d.2 = true := by
    have := List.any_eq_false.1 hfail d hd
    simpa [hmates] using this
  refine hl (resultLeaves_none.2 ⟨hkind ▸ hretire, hdok, List.any_eq_false.2 fun x hx hfailed => ?_⟩)
  simp only [SlotPlan.mates, Bool.and_eq_true, beq_iff_eq, Bool.not_eq_true'] at hfailed
  obtain ⟨⟨⟨⟨hst, hf⟩, -⟩, hxp⟩, hxfail⟩ := hfailed
  have hxkey : x.1.key = d'.1.key := by
    have hp : x.1.key.param = d'.1.key.param := Option.some.inj (hxp.symm.trans hq)
    exact key_ext (by rw [hst, hkey]) (by rw [hf, hkey]) hp
  rw [List.inj_on_of_nodup_map h.keys_nodup hx hd' hxkey, hok] at hxfail
  cases hxfail

/-- R7 after a completion. -/
theorem partnersLaw (h : CompletionOf m l all) (hm : workingWf m = true) (hu : KeysUnique m) (hp : PartnersLaw m) :
    PartnersLaw (applyResults all m) := by
  have hplaced := h.placed hm hu
  have hu' := hplaced.keysUnique hm hu
  intro e he q hq
  have hek := entryAt_of_mem hu' he
  by_cases hnamed : ∃ d ∈ all, d.1.key = e.key
  · obtain ⟨d, hd, hdk⟩ := hnamed
    rw [← hdk, hplaced.entryAt_of_mem hm hu hd] at hek
    obtain ⟨-, -, hpart, hbody⟩ := resultLeaves_some hek
    obtain ⟨d', hd', hkey, hkind, hback, hrev⟩ := h.mate hd (hpart ▸ hq)
    have hparam : d'.1.key.param = q := by rw [hkey]
    have hleaves := h.mate_leaves hd hd' (hparam.symm ▸ hkey) hkind (hparam.symm ▸ hpart ▸ hq) hback (by simp [hek])
    obtain ⟨e', he'⟩ := Option.ne_none_iff_exists'.1 hleaves
    obtain ⟨-, -, hpart', hbody'⟩ := resultLeaves_some he'
    refine ⟨e', ?_, hpart'.trans (hdk ▸ hback), fun b b' hb hb' => ?_⟩
    · rw [← hdk, ← hkey, hplaced.entryAt_of_mem hm hu hd', he']
    · rcases hbody with hnone | ⟨-, -, hsame⟩
      · rw [hnone] at hb; cases hb
      · rcases hbody' with hnone' | ⟨-, -, hsame'⟩
        · rw [hnone'] at hb'; cases hb'
        · exact hrev b b' (hsame ▸ hb) (hsame' ▸ hb')
  · have hne : ∀ d ∈ all, d.1.key ≠ e.key := fun d hd hk => hnamed ⟨d, hd, hk⟩
    rw [hplaced.entryAt_ne hm hu hne] at hek
    obtain ⟨d, hd, hback, hrev⟩ := hp e (entryAt_some hek).1 q hq
    refine ⟨d, ?_, hback, hrev⟩
    rw [hplaced.entryAt_ne hm hu, hd]
    intro x hx hxk
    obtain ⟨c, hc, hcx⟩ := h.change hx
    obtain ⟨hcreate, -, hpartner⟩ := h.fit c hc
    have hck : c.key = { e.key with param := q } := hcx.key.symm.trans hxk
    have hnot : c.kind ≠ .create := fun hk => by
      have := hcreate.1 hk
      rw [hck, hd] at this
      cases this
    obtain ⟨e', he', hek', hep⟩ := hcx.stands hnot
    have hed : e' = d := by
      have := entryAt_of_mem hu (List.mem_map_of_mem (f := Prod.snd) he')
      rw [hek', hck, hd] at this
      exact (Option.some.inj this).symm
    have hcp : partnerOf m c = some e.key.param := by rw [← hcx.partner, ← hep, hed, hback]
    obtain ⟨c', hc', hkey', -⟩ := hpartner _ hcp
    obtain ⟨y, hy, hcy⟩ := h.result hc'
    refine hne y hy ?_
    rw [hcy.key, hkey', hck]

end CompletionOf

end Sys2Proof.Machine
end

section
/-! SUPPORT. The array after slot writes, interrupted writes and the scan's own writes; and the freed slots, whose headers
read as no entry's (R10). -/

namespace Sys2Proof.Machine

/-! ### One slot write -/

theorem slot_leaveSlot_ne {p : SlotPlan} {n : Nat} (h b : Left) (a : NvArray) (hn : n ≠ p.slot) :
    (leaveSlot p h b a).slot n = a.slot n := by
  unfold leaveSlot
  cases p.kind <;> exact slot_writeSlot_ne a _ hn

theorem wf_leaveSlot {p : SlotPlan} {a : NvArray} (h b : Left) (ha : a.wf = true) (hp : p.slot < Config.slotCount) :
    (leaveSlot p h b a).wf = true := by
  unfold leaveSlot
  cases p.kind <;> exact wf_writeSlot _ ha hp

/-- What a write of a plan leaves, whatever its outcome. -/
theorem writeSlotPlan_leaves (p : SlotPlan) (o : SlotOutcome) (a : NvArray) :
    ∃ h b, (writeSlotPlan p o a).1 = leaveSlot p h b a := by
  cases o with
  | verified => exact ⟨.new, .new, rfl⟩
  | failed h b => exact ⟨h, b, rfl⟩

theorem slot_writeSlotPlan_ne {p : SlotPlan} {n : Nat} (o : SlotOutcome) (a : NvArray) (hn : n ≠ p.slot) :
    ((writeSlotPlan p o a).1).slot n = a.slot n := by
  obtain ⟨h, b, he⟩ := writeSlotPlan_leaves p o a
  rw [he, slot_leaveSlot_ne h b a hn]

theorem wf_writeSlotPlan {p : SlotPlan} {a : NvArray} (o : SlotOutcome) (ha : a.wf = true)
    (hp : p.slot < Config.slotCount) : ((writeSlotPlan p o a).1).wf = true := by
  obtain ⟨h, b, he⟩ := writeSlotPlan_leaves p o a
  rw [he]
  exact wf_leaveSlot h b ha hp

/-- A RETIRE that verified has left its slot's header free. -/
theorem header_of_retired {p : SlotPlan} {o : SlotOutcome} {a : NvArray} (ha : a.wf = true) (hk : p.kind = .retire)
    (hv : (writeSlotPlan p o a).2 = true) : (((writeSlotPlan p o a).1).slot p.slot).header = .free := by
  cases o with
  | failed h b => cases hv
  | verified =>
    simp only [writeSlotPlan, leaveSlot, hk]
    rw [slot_writeSlot_same _ _ ha]
    rfl

/-! ### Headers that read as no entry's -/

/-- The slot's header reads as no entry's. -/
def NvSlot.Headless (c : NvSlot) : Prop := ∀ k cls q, c.header ≠ .entry k cls q

/-- A write that is no CREATE's leaves a slot without an entry's header so. -/
theorem headless_leaveSlot {p : SlotPlan} {a : NvArray} (h b : Left) (ha : a.wf = true) (hk : p.kind ≠ .create)
    (hs : (a.slot p.slot).Headless) : ((leaveSlot p h b a).slot p.slot).Headless := by
  unfold leaveSlot
  cases hkind : p.kind with
  | create => exact absurd hkind hk
  | set => dsimp only; rw [slot_writeSlot_same _ _ ha]; exact hs
  | retire =>
    dsimp only
    rw [slot_writeSlot_same _ _ ha]
    intro k cls q
    cases h with
    | old => exact hs k cls q
    | new => exact Header.noConfusion
    | torn => exact Header.noConfusion

theorem headless_writeSlotPlan {p : SlotPlan} {a : NvArray} {n : Nat} (o : SlotOutcome) (ha : a.wf = true)
    (hk : n = p.slot → p.kind ≠ .create) (hs : (a.slot n).Headless) :
    (((writeSlotPlan p o a).1).slot n).Headless := by
  obtain ⟨h, b, he⟩ := writeSlotPlan_leaves p o a
  rw [he]
  by_cases hn : n = p.slot
  · subst hn
    exact headless_leaveSlot h b ha (hk rfl) hs
  · rwa [slot_leaveSlot_ne h b a hn]

/-! ### Interrupted writes and the scan's own -/

theorem wf_leaveRecord (j : Job) (l : Left) (a : NvArray) : (leaveRecord j l a).wf = a.wf := by
  cases j <;> rfl

/-- The array stays canonical when the writer's work is cut short. -/
theorem wf_interruptJob {a : NvArray} {j : Option Job} (i : Interruption) (ha : a.wf = true) (hj : plansInArray j) :
    (interruptJob i j a).wf = true := by
  unfold interruptJob
  split
  · exact ha
  · next plans results =>
    split
    · exact ha
    · next p hp => exact wf_leaveSlot _ _ ha (hj p (List.mem_of_getElem? hp))
  all_goals rw [wf_leaveRecord]; exact ha

theorem wf_foldl_freeHeader {l : List Nat} {a : NvArray} (left : Nat → Left) (ha : a.wf = true)
    (hl : ∀ n ∈ l, n < Config.slotCount) : (l.foldl (fun b n => freeHeader (left n) n b) a).wf = true := by
  induction l generalizing a with
  | nil => exact ha
  | cons n l ih =>
    exact ih (wf_writeSlot _ ha (hl n List.mem_cons_self)) fun k hk => hl k (List.mem_cons_of_mem _ hk)

theorem slotsToFree_lt {a : NvArray} (m : SlotMap Entry) (ha : a.wf = true) :
    ∀ n ∈ slotsToFree m a, n < Config.slotCount := by
  simp only [NvArray.wf, Bool.and_eq_true] at ha
  intro n hn
  obtain ⟨x, hx, rfl⟩ := List.mem_map.1 hn
  exact slotsRise_lt ha.1 x (List.mem_filter.1 hx).1

/-- The canonical form is one of the entry slots alone. -/
theorem wf_congr {a b : NvArray} (h : b.slots = a.slots) : b.wf = a.wf := by
  simp only [NvArray.wf, h]

/-- The array stays canonical under the scan's own writes. -/
theorem wf_scanWrites {a : NvArray} (d : Left) (w : ScanWrites) (m : SlotMap Entry) (ha : a.wf = true) :
    (scanWrites d w m a).wf = true := by
  have h := wf_foldl_freeHeader (fun n => scanLeft w (.slot n) d) ha (slotsToFree_lt m ha)
  rw [← h]
  exact wf_congr (by simp only [scanWrites])

/-- The array stays canonical at a module reset. -/
theorem wf_cutArray {s : State} (i : Interruption) (ha : s.array.wf = true) (hj : plansInArray s.writer) :
    (cutArray i s).wf = true := by
  refine wf_interruptJob i ?_ hj
  split
  · exact wf_scanWrites _ _ _ ha
  · exact ha

end Sys2Proof.Machine
end

section
/-! SUPPORT. The scan: what the reading of the slots builds (R88), and what the partner pass leaves (R89). -/

namespace Sys2Proof.Machine

/-! ### The reading of the slots (R88) -/

/-- The body read of a slot is one in order. -/
theorem validBody_ok {c : NvSlot} {b : Body} (h : c.validBody = some b) : b.InOrder := by
  obtain ⟨-, hok⟩ := Option.filter_eq_some_iff.1 h
  exact body_ok_iff.1 hok

/-- Everything that reading one slot does to the working form: nothing, or an entry joins, of a key not read yet and with
a body in order. -/
theorem readSlot_slots (r : SlotReading) (x : Nat × NvSlot) :
    (readSlot r x).slots = r.slots ∨ ∃ e : Entry, (readSlot r x).slots = r.slots ++ [(x.1, e)] ∧
      entryAt r.slots e.key = none ∧ ∀ b, e.body = some b → b.InOrder := by
  unfold readSlot
  split
  · exact .inl rfl
  · exact .inl rfl
  · split
    · exact .inl rfl
    · next k cls q _ hk =>
      exact .inr ⟨_, rfl, by simpa using hk, fun b hb => validBody_ok hb⟩

theorem keysUnique_append {m : SlotMap Entry} {x : Nat × Entry} (hu : KeysUnique m)
    (hx : entryAt m x.2.key = none) : KeysUnique (m ++ [x]) := by
  unfold KeysUnique
  rw [List.map_append, List.map_singleton, List.nodup_append]
  refine ⟨hu, List.nodup_singleton _, ?_⟩
  intro k hk k' hk' he
  obtain ⟨y, hy, rfl⟩ := List.mem_map.1 hk
  rw [List.mem_singleton.1 hk'] at he
  exact entryAt_none.1 hx y.2 (List.mem_map_of_mem hy) he

theorem foldl_readSlot (l : SlotMap NvSlot) (r : SlotReading) (hu : KeysUnique r.slots)
    (hb : BodiesInOrder r.slots) :
    List.Sublist ((l.foldl readSlot r).slots.map Prod.fst) (r.slots.map Prod.fst ++ l.map Prod.fst) ∧
      KeysUnique (l.foldl readSlot r).slots ∧ BodiesInOrder (l.foldl readSlot r).slots := by
  induction l generalizing r with
  | nil => exact ⟨by simp, hu, hb⟩
  | cons x l ih =>
    rcases readSlot_slots r x with h | ⟨e, h, hk, hbody⟩
    · obtain ⟨hsub, hrest⟩ := ih (readSlot r x) (h ▸ hu) (h ▸ hb)
      rw [h] at hsub
      exact ⟨hsub.trans ((List.sublist_cons_self _ _).append_left _), hrest⟩
    · have hb' : BodiesInOrder (readSlot r x).slots := by
        rw [h]
        intro e' he'
        rw [List.map_append, List.map_singleton] at he'
        rcases List.mem_append.1 he' with he' | he'
        · exact hb e' he'
        · rw [List.mem_singleton.1 he']; exact hbody
      obtain ⟨hsub, hrest⟩ := ih (readSlot r x) (h ▸ keysUnique_append hu hk) hb'
      rw [h] at hsub
      exact ⟨by simpa using hsub, hrest⟩

theorem readSlots_sublist (a : NvArray) :
    List.Sublist ((readSlots a).slots.map Prod.fst) (a.slots.map Prod.fst) :=
  (foldl_readSlot a.slots ⟨[], 0⟩ .nil (by simp [BodiesInOrder])).1

theorem workingWf_readSlots {a : NvArray} (ha : a.wf = true) : workingWf (readSlots a).slots = true := by
  simp only [NvArray.wf, Bool.and_eq_true] at ha
  exact slotsRise_sublist (readSlots_sublist a) ha.1

theorem keysUnique_readSlots (a : NvArray) : KeysUnique (readSlots a).slots :=
  (foldl_readSlot a.slots ⟨[], 0⟩ .nil (by simp [BodiesInOrder])).2.1

theorem bodiesInOrder_readSlots (a : NvArray) : BodiesInOrder (readSlots a).slots :=
  (foldl_readSlot a.slots ⟨[], 0⟩ .nil (by simp [BodiesInOrder])).2.2

/-! ### Orphans (R89, step 1) -/

variable {m : SlotMap Entry}

/-- The entry's partner is in the table, naming it in return. -/
def PartnerStands (m : SlotMap Entry) (e : Entry) : Prop :=
  ∀ q, e.partner = some q → ∃ d, entryAt m { e.key with param := q } = some d ∧ d.partner = some e.key.param

theorem orphaned_eq_false {e : Entry} : orphaned m e = false ↔ PartnerStands m e := by
  unfold orphaned PartnerStands Entry.partnerKey
  cases hq : e.partner with
  | none => simp
  | some q =>
    simp only [Option.map_some, Option.some.injEq, forall_eq']
    cases entryAt m { e.key with param := q } with
    | none => simp
    | some d => simp

theorem keysUnique_filter (p : Nat × Entry → Bool) (hu : KeysUnique m) : KeysUnique (m.filter p) :=
  List.Nodup.sublist (List.filter_sublist.map _) hu

theorem mem_freeOrphans {x : Nat × Entry} : x ∈ freeOrphans m ↔ x ∈ m ∧ PartnerStands m x.2 := by
  simp [freeOrphans, orphaned_eq_false]

theorem keysUnique_freeOrphans (hu : KeysUnique m) : KeysUnique (freeOrphans m) := keysUnique_filter _ hu

/-- An entry that names a partner stays exactly where that partner does, and both stay as they are. -/
theorem entryAt_freeOrphans (hu : KeysUnique m) {k : Key} {e : Entry} :
    entryAt (freeOrphans m) k = some e ↔ entryAt m k = some e ∧ PartnerStands m e := by
  rw [entryAt_iff (keysUnique_freeOrphans hu), entryAt_iff hu]
  simp only [mem_snd, mem_freeOrphans]
  tauto

theorem partnerStands_mate (hu : KeysUnique m) {e d : Entry} {q : ParamNo} (he : e ∈ m.map Prod.snd)
    (hq : e.partner = some q) (hd : entryAt m { e.key with param := q } = some d)
    (hback : d.partner = some e.key.param) : PartnerStands m d := by
  intro q' hq'
  obtain rfl : q' = e.key.param := Option.some.inj (hq'.symm.trans hback)
  have hdk := (entryAt_some hd).2
  refine ⟨e, ?_, by rw [hq, hdk]⟩
  rw [hdk]
  exact entryAt_of_mem hu he

/-! ### Unequal pairs (R89, step 2) -/

/-- An entry and its partner are both ACTIVE, at unequal revisions. -/
theorem unequal_iff {e : Entry} : unequal m e = true ↔
    ∃ q d b b', e.partner = some q ∧ entryAt m { e.key with param := q } = some d ∧ e.body = some b ∧
      d.body = some b' ∧ b.revision ≠ b'.revision := by
  unfold unequal Entry.partnerKey
  cases hb : e.body with
  | none => simp
  | some b =>
    cases hq : e.partner with
    | none => simp
    | some q =>
      simp only [Option.map_some, Option.bind_some]
      cases hd : entryAt m { e.key with param := q } with
      | none => simp [hd]
      | some d =>
        cases hb' : d.body with
        | none => simp [hd, hb']
        | some b' => simp [hd, hb']

/-- What step 2 makes of an entry. -/
def settled (m : SlotMap Entry) (e : Entry) : Entry := if unequal m e then { e with body := none } else e

theorem damageUnequal_eq : damageUnequal m = m.map fun x => (x.1, settled m x.2) := by
  unfold damageUnequal settled
  refine List.map_congr_left fun x _ => ?_
  split <;> rfl

@[simp] theorem settled_key (e : Entry) : (settled m e).key = e.key := by unfold settled; split <;> rfl
@[simp] theorem settled_cls (e : Entry) : (settled m e).cls = e.cls := by unfold settled; split <;> rfl
@[simp] theorem settled_partner (e : Entry) : (settled m e).partner = e.partner := by unfold settled; split <;> rfl

/-- An entry that is ACTIVE after step 2 was so before, with its partner's revision. -/
theorem settled_active {e : Entry} {b : Body} (h : (settled m e).body = some b) :
    e.body = some b ∧ unequal m e = false := by
  unfold settled at h
  split at h
  · cases h
  · next hu => exact ⟨h, by simpa using hu⟩

theorem damageUnequal_fst : (damageUnequal m).map Prod.fst = m.map Prod.fst := by
  rw [damageUnequal_eq]; simp [Function.comp_def]

theorem mem_damageUnequal {x : Nat × Entry} :
    x ∈ damageUnequal m ↔ ∃ e, (x.1, e) ∈ m ∧ x.2 = settled m e := by
  rw [damageUnequal_eq, List.mem_map]
  constructor
  · rintro ⟨y, hy, rfl⟩; exact ⟨y.2, hy, rfl⟩
  · rintro ⟨e, he, hx⟩; exact ⟨_, he, Prod.ext rfl hx.symm⟩

theorem keysUnique_damageUnequal (hu : KeysUnique m) : KeysUnique (damageUnequal m) := by
  unfold KeysUnique at hu ⊢
  rw [damageUnequal_eq, List.map_map]
  simpa only [Function.comp_def, settled_key] using hu

theorem entryAt_map {f : Entry → Entry} (hf : ∀ e, (f e).key = e.key) (m : SlotMap Entry) (k : Key) :
    entryAt (m.map fun x => (x.1, f x.2)) k = (entryAt m k).map f := by
  induction m with
  | nil => rfl
  | cons x m ih =>
    rw [List.map_cons, entryAt_cons, entryAt_cons, ih, hf]
    split <;> rfl

theorem entryAt_damageUnequal (k : Key) : entryAt (damageUnequal m) k = (entryAt m k).map (settled m) := by
  rw [damageUnequal_eq]
  exact entryAt_map settled_key m k

/-! ### The partner pass -/

theorem partnerPass_sublist (m : SlotMap Entry) :
    List.Sublist ((partnerPass m).map Prod.fst) (m.map Prod.fst) := by
  rw [partnerPass, damageUnequal_fst]
  exact List.filter_sublist.map _

theorem workingWf_partnerPass (hm : workingWf m = true) : workingWf (partnerPass m) = true :=
  slotsRise_sublist (partnerPass_sublist m) hm

theorem keysUnique_partnerPass (hu : KeysUnique m) : KeysUnique (partnerPass m) :=
  keysUnique_damageUnequal (keysUnique_freeOrphans hu)

/-- What the pass leaves is an entry of the table whose partner stands, as it was or DAMAGED. -/
theorem mem_partnerPass {x : Nat × Entry} :
    x ∈ partnerPass m ↔ ∃ e, (x.1, e) ∈ m ∧ PartnerStands m e ∧ x.2 = settled (freeOrphans m) e := by
  simp only [partnerPass, mem_damageUnequal, mem_freeOrphans, and_assoc]

theorem bodiesInOrder_partnerPass (hb : BodiesInOrder m) : BodiesInOrder (partnerPass m) := by
  intro e he b hbody
  obtain ⟨n, he⟩ := mem_snd.1 he
  obtain ⟨e', he', -, rfl⟩ := mem_partnerPass.1 he
  exact hb e' (mem_snd.2 ⟨n, he'⟩) b (settled_active hbody).1

/-- R7 after the partner pass. -/
theorem partnersLaw_partnerPass (hu : KeysUnique m) : PartnersLaw (partnerPass m) := by
  intro e he q hq
  obtain ⟨n, he⟩ := mem_snd.1 he
  obtain ⟨e', he', hstands, rfl⟩ := mem_partnerPass.1 he
  have he' : e' ∈ m.map Prod.snd := mem_snd.2 ⟨n, he'⟩
  rw [settled_partner] at hq
  obtain ⟨d, hd, hback⟩ := hstands q hq
  have hd' := (entryAt_freeOrphans hu).2 ⟨hd, partnerStands_mate hu he' hq hd hback⟩
  refine ⟨settled (freeOrphans m) d, ?_, ?_, fun b b' hb hb' => ?_⟩
  · rw [partnerPass, entryAt_damageUnequal, settled_key, hd']; rfl
  · rw [settled_partner, settled_key, hback]
  · by_contra hne
    have := unequal_iff.2 ⟨q, d, b, b', hq, hd', (settled_active hb).1, (settled_active hb').1, hne⟩
    rw [(settled_active hb).2] at this
    cases this

end Sys2Proof.Machine
end

section
/-! SUPPORT. Everything that the store's own commands can do to the fields that the laws of the store and of the table
speak of: the writer's completions, the module resets, and the end of the scan. -/

namespace Sys2Proof.Machine

variable {s t : State}

/-! ### The completions -/

theorem execRecordWriteCompletion_cases {o : RecordOutcome} (h : exec (.recordWriteCompletion o) s = .next t) :
    t = s ∨ ∃ j, s.writer = some j ∧ t = takeItem (settle s (endRecord o j s)) := by
  cases h
  split
  · exact .inl rfl
  · next j hj =>
    split
    · exact .inr ⟨j, hj, rfl⟩
    · exact .inl rfl

/-- A slot write that another one follows: the array and the results of the item being written. -/
theorem execSlotWriteCompletion_cases {o : SlotOutcome} (h : exec (.slotWriteCompletion o) s = .next t) :
    t = s ∨ ∃ ch number plans results p, s.writer = some (.proposal ch number plans results) ∧
      plans[results.length]? = some p ∧
      t = { s with
        array := (writeSlotPlan p o s.array).1
        writer := some (.proposal ch number plans (results ++ [(writeSlotPlan p o s.array).2])) } := by
  cases h
  split
  · next ch number plans results hw =>
    split
    · split
      · exact .inl rfl
      · next p hp => exact .inr ⟨ch, number, plans, results, p, hw, hp, rfl⟩
    · exact .inl rfl
  all_goals exact .inl rfl

/-- The last slot write of the item being written, and the item's completion. -/
theorem execProposalItemCompletion_cases {o : SlotOutcome} (h : exec (.proposalItemCompletion o) s = .next t) :
    t = s ∨ ∃ ch number plans results p, s.writer = some (.proposal ch number plans results) ∧
      results.length + 1 = plans.length ∧ plans[results.length]? = some p ∧
      t = endItem ch number plans results p o s := by
  cases h
  split
  · next ch number plans results hw =>
    split
    · next hlen =>
      split
      · exact .inl rfl
      · next p hp => exact .inr ⟨ch, number, plans, results, p, hw, hlen, hp, rfl⟩
    · exact .inl rfl
  all_goals exact .inl rfl

/-- The results of an item whose last slot write ends with `o`. -/
def finalResults (plans : List SlotPlan) (results : List Bool) (p : SlotPlan) (o : SlotOutcome) (a : NvArray) :
    List SlotResult :=
  plans.zip (results ++ [(writeSlotPlan p o a).2])

theorem finalResults_plans {plans : List SlotPlan} {results : List Bool} (p : SlotPlan) (o : SlotOutcome) (a : NvArray)
    (h : results.length + 1 = plans.length) : (finalResults plans results p o a).map Prod.fst = plans :=
  List.map_fst_zip (by simp [h])

/-- A result of the item is one of those done before, or that of the last slot write. -/
theorem mem_finalResults {plans : List SlotPlan} {results : List Bool} {p : SlotPlan} {o : SlotOutcome} {a : NvArray}
    (hlen : results.length + 1 = plans.length) (hp : plans[results.length]? = some p) {d : SlotResult}
    (hd : d ∈ finalResults plans results p o a) : d ∈ plans.zip results ∨ d = (p, (writeSlotPlan p o a).2) := by
  obtain ⟨i, hi, rfl⟩ := List.mem_iff_getElem.1 hd
  have hi' : i < plans.length := by simp [finalResults] at hi; omega
  rcases Nat.lt_or_ge i results.length with hlt | hge
  · left
    have : (finalResults plans results p o a)[i] = (plans[i], results[i]) := by
      simp [finalResults, List.getElem_append_left hlt]
    rw [this]
    exact List.mem_iff_getElem.2 ⟨i, by simp; omega, by simp⟩
  · right
    obtain rfl : i = results.length := by omega
    have hpi : plans[results.length] = p := by simpa [hi'] using hp
    simp [finalResults, hpi]

/-- Effects 1 to 3 of R82, field by field; the stations' records are what the re-judgement makes of them. -/
theorem applyCompletion_eq (all : List SlotResult) (s : State) :
    applyCompletion all s =
      { s with
        slots := applyResults (tableResults s.freed all) s.slots
        freed := freedAfter s.freed all (applyResults (tableResults s.freed all) s.slots)
        degraded := s.degraded || anyFailed all
        digests := correctDigests s.slots (applyResults (tableResults s.freed all) s.slots)
          (targetsOf (all.map fun d => d.1.key)) s.digests
        stations := (applyCompletion all s).stations } := by
  unfold applyCompletion
  dsimp only
  rw [rejudge_frame]

theorem applyCompletion_phase (all : List SlotResult) (s : State) : (applyCompletion all s).phase = s.phase := by
  rw [applyCompletion_eq]
theorem applyCompletion_slots (all : List SlotResult) (s : State) :
    (applyCompletion all s).slots = applyResults (tableResults s.freed all) s.slots := by
  rw [applyCompletion_eq]
theorem applyCompletion_freed (all : List SlotResult) (s : State) :
    (applyCompletion all s).freed = freedAfter s.freed all (applyResults (tableResults s.freed all) s.slots) := by
  rw [applyCompletion_eq]
theorem applyCompletion_digests (all : List SlotResult) (s : State) :
    (applyCompletion all s).digests = correctDigests s.slots (applyResults (tableResults s.freed all) s.slots)
      (targetsOf (all.map fun d => d.1.key)) s.digests := by
  rw [applyCompletion_eq]
theorem applyCompletion_array (all : List SlotResult) (s : State) : (applyCompletion all s).array = s.array := by
  rw [applyCompletion_eq]

/-- What the completion of an item whose results are `all` makes of the table, the freed slots and the digests, with the
array at `a`; and the writer's next plans are for slots of the array. -/
structure CompletedTo (s : State) (all : List SlotResult) (a : NvArray) (t : State) : Prop where
  phase : t.phase = s.phase
  slots : t.slots = applyResults (tableResults s.freed all) s.slots
  freed : t.freed = freedAfter s.freed all (applyResults (tableResults s.freed all) s.slots)
  digests : t.digests = correctDigests s.slots (applyResults (tableResults s.freed all) s.slots)
    (targetsOf (all.map fun d => d.1.key)) s.digests
  array : t.array = a
  plans : workingWf t.slots = true → plansInArray t.writer

theorem endItem_to (ch : ChannelNo) (number : Nat) (plans : List SlotPlan) (results : List Bool) (p : SlotPlan)
    (o : SlotOutcome) (s : State) :
    CompletedTo s (finalResults plans results p o s.array) (writeSlotPlan p o s.array).1
      (endItem ch number plans results p o s) := by
  unfold endItem completeItem
  exact
    { phase := by simp [applyCompletion_phase]
      slots := by simp [applyCompletion_slots, finalResults]
      freed := by simp [applyCompletion_freed, finalResults]
      digests := by simp [applyCompletion_digests, finalResults]
      array := by simp [applyCompletion_array]
      plans := fun hm => (StoreFrame.takeItem _).plans (by simpa using hm) trivial }

/-! ### The module resets -/

/-- A module reset, a held reset line or a loss of the supply: the working form is discarded, the array is as the cut
writes leave it, and the slots are empty or are read from it (R87, R88). -/
structure CutBy (i : Interruption) (s t : State) : Prop where
  array : t.array = cutArray i s
  slots : t.slots = [] ∨ t.slots = (readSlots (cutArray i s)).slots
  freed : t.freed = []
  writer : t.writer = none
  phase : t.phase ≠ .running

theorem execPowerOn_cut {i : Interruption} {l : Bank 4 Bool} (h : exec (.powerOn i l) s = .next t) : CutBy i s t := by
  cases h
  split
  · exact ⟨rfl, .inl rfl, rfl, rfl, Phase.noConfusion⟩
  · exact ⟨rfl, .inr rfl, rfl, rfl, Phase.noConfusion⟩

theorem execBusReset_cut {i : Interruption} {l : Bank 4 Bool} (h : exec (.busReset i l) s = .next t) :
    StoreFrame s t ∨ CutBy i s t := by
  cases h
  split
  · exact .inl (.of_eq rfl rfl rfl rfl rfl rfl)
  · exact .inr ⟨rfl, .inr rfl, rfl, rfl, Phase.noConfusion⟩

theorem execBusResetLineAsserted_cut {i : Interruption} (h : exec (.busResetLineAsserted i) s = .next t) :
    StoreFrame s t ∨ CutBy i s t := by
  cases h
  split
  · exact .inl (.of_eq rfl rfl rfl rfl rfl rfl)
  · exact .inr ⟨rfl, .inl rfl, rfl, rfl, Phase.noConfusion⟩

theorem execLogicSupplyLoss_cut {i : Interruption} (h : exec (.logicSupplyLoss i) s = .next t) : CutBy i s t := by
  cases h
  exact ⟨rfl, .inl rfl, rfl, rfl, Phase.noConfusion⟩

/-! ### The end of the scan -/

/-- The end of the scan (R92): the partner pass, the digests built whole, and the scan's own writes. -/
structure ScannedTo (w : ScanWrites) (s t : State) : Prop where
  slots : t.slots = partnerPass s.slots
  digests : t.digests = rebuildDigests (partnerPass s.slots)
  freed : t.freed = s.freed
  array : t.array = scanWrites .new w (partnerPass s.slots) s.array
  plans : workingWf t.slots = true → plansInArray s.writer → plansInArray t.writer

theorem recomputeAll_frame (s : State) : StoreFrame s (recomputeAll s) := by
  unfold recomputeAll
  generalize List.finRange 4 = l
  induction l generalizing s with
  | nil => exact .refl s
  | cons sec l ih => exact ((StoreFrame.refl s).recompute sec).trans (ih _)

theorem flagFaults_frame (s : State) : StoreFrame s (flagFaults s) := by
  unfold flagFaults
  split
  · exact .refl s
  · exact .of_eq rfl rfl rfl rfl rfl rfl

theorem openModule_eq (s : State) :
    openModule s = { s with phase := .running, degraded := false, outputs := (openModule s).outputs } := rfl

theorem loadArray_slots (w : ScanWrites) (s : State) : (loadArray w s).slots = partnerPass s.slots := by
  simp only [loadArray]
theorem loadArray_digests (w : ScanWrites) (s : State) :
    (loadArray w s).digests = rebuildDigests (partnerPass s.slots) := by
  simp only [loadArray]
theorem loadArray_freed (w : ScanWrites) (s : State) : (loadArray w s).freed = s.freed := by
  simp only [loadArray]
theorem loadArray_array (w : ScanWrites) (s : State) :
    (loadArray w s).array = scanWrites .new w (partnerPass s.slots) s.array := by
  simp only [loadArray]
theorem loadArray_writer (w : ScanWrites) (s : State) : (loadArray w s).writer = s.writer := by
  simp only [loadArray]

theorem scanEnd_to (w : ScanWrites) (s : State) :
    ScannedTo w s (flagFaults (openModule (recomputeAll (loadArray w s)))) := by
  have hload := recomputeAll_frame (loadArray w s)
  generalize hu : recomputeAll (loadArray w s) = u at hload
  have hflag := flagFaults_frame (openModule u)
  rw [openModule_eq] at hflag
  exact
    { slots := hflag.slots.trans (hload.slots.trans (loadArray_slots w s))
      digests := hflag.digests.trans (hload.digests.trans (loadArray_digests w s))
      freed := hflag.freed.trans (hload.freed.trans (loadArray_freed w s))
      array := hflag.array.trans (hload.array.trans (loadArray_array w s))
      plans := fun hm hp =>
        hflag.plans (hflag.slots ▸ hm) (hload.plans (hload.slots ▸ hflag.slots ▸ hm) (loadArray_writer w s ▸ hp)) }

theorem execStartUpScanEnd_cases {w : ScanWrites} (h : exec (.startUpScanEnd w) s = .next t) :
    t = s ∨ (s.phase = .scanning ∧ ScannedTo w s t) := by
  have h : (if s.phase = .scanning then flagFaults (openModule (recomputeAll (loadArray w s))) else s) = t :=
    Host.Outcome.next.inj h
  split at h
  · next hphase => exact .inr ⟨hphase, h ▸ scanEnd_to w s⟩
  · exact .inl h.symm

end Sys2Proof.Machine
end

section
/-! PROOFS. O59: every step keeps the store's form (R2, R72) and the laws of the table (R1, R5, R7, R10, R27). -/

namespace Sys2Proof.Machine

variable {s t : State}

/-! ### The store's form -/

theorem StoreFrame.storeLaw (h : StoreFrame s t) (hs : StoreLaw s) : StoreLaw t := by
  obtain ⟨hslots, harray, hplans⟩ := hs
  exact ⟨h.slots ▸ hslots, h.array ▸ harray, h.plans hslots hplans⟩

theorem CutBy.storeLaw {i : Interruption} (h : CutBy i s t) (hs : StoreLaw s) : StoreLaw t := by
  obtain ⟨-, harray, hplans⟩ := hs
  have ha := wf_cutArray i harray hplans
  refine ⟨?_, h.array ▸ ha, h.writer ▸ trivial⟩
  rcases h.slots with h | h
  · rw [h]; rfl
  · rw [h]; exact workingWf_readSlots ha

/-- The slot writes of the item being written are for slots of the array. -/
theorem plansInArray_writer {ch : ChannelNo} {number : Nat} {plans : List SlotPlan} {results : List Bool}
    (hp : plansInArray s.writer) (hw : s.writer = some (.proposal ch number plans results)) :
    ∀ p ∈ plans, p.slot < Config.slotCount := by
  rw [hw] at hp
  exact hp

theorem recordCompletion_storeLaw {o : RecordOutcome} (h : exec (.recordWriteCompletion o) s = .next t)
    (hs : StoreLaw s) : StoreLaw t := by
  rcases execRecordWriteCompletion_cases h with rfl | ⟨j, -, rfl⟩
  · exact hs
  · obtain ⟨hslots, harray, -⟩ := hs
    exact (StoreFrame.takeItem _).storeLaw ⟨hslots, (wf_leaveRecord j _ _).trans harray, trivial⟩

theorem slotCompletion_storeLaw {o : SlotOutcome} (h : exec (.slotWriteCompletion o) s = .next t) (hs : StoreLaw s) :
    StoreLaw t := by
  rcases execSlotWriteCompletion_cases h with rfl | ⟨ch, number, plans, results, p, hw, hp, rfl⟩
  · exact hs
  · obtain ⟨hslots, harray, hplans⟩ := hs
    have hplans := plansInArray_writer hplans hw
    exact ⟨hslots, wf_writeSlotPlan o harray (hplans p (List.mem_of_getElem? hp)), hplans⟩

theorem itemCompletion_storeLaw {o : SlotOutcome} (h : exec (.proposalItemCompletion o) s = .next t)
    (hs : StoreLaw s) : StoreLaw t := by
  rcases execProposalItemCompletion_cases h with rfl | ⟨ch, number, plans, results, p, hw, hlen, hp, rfl⟩
  · exact hs
  · obtain ⟨hslots, harray, hplans⟩ := hs
    have hplans := plansInArray_writer hplans hw
    have hto := endItem_to ch number plans results p o s
    have hm : workingWf (endItem ch number plans results p o s).slots = true := by
      rw [hto.slots]
      refine workingWf_applyResults hslots fun d hd => hplans d.1 ?_
      rw [← finalResults_plans p o s.array hlen, ← tableResults_plans s.freed]
      exact List.mem_map_of_mem hd
    exact ⟨hm, hto.array ▸ wf_writeSlotPlan o harray (hplans p (List.mem_of_getElem? hp)), hto.plans hm⟩

theorem scanEnd_storeLaw {w : ScanWrites} (h : exec (.startUpScanEnd w) s = .next t) (hs : StoreLaw s) :
    StoreLaw t := by
  rcases execStartUpScanEnd_cases h with rfl | ⟨-, hto⟩
  · exact hs
  · obtain ⟨hslots, harray, hplans⟩ := hs
    have hm : workingWf t.slots = true := hto.slots ▸ workingWf_partnerPass hslots
    exact ⟨hm, hto.array ▸ wf_scanWrites _ _ _ harray, hto.plans hm hplans⟩

/-- R2 and R72 at every command. -/
theorem exec_storeLaw {c : Instr} (h : exec c s = .next t) (hs : StoreLaw s) : StoreLaw t := by
  cases hc : isStoreEvent c with
  | false => exact (exec_frame hc h).storeLaw hs
  | true =>
    cases c <;> simp only [isStoreEvent, reduceCtorEq] at hc
    case recordWriteCompletion o => exact recordCompletion_storeLaw h hs
    case slotWriteCompletion o => exact slotCompletion_storeLaw h hs
    case proposalItemCompletion o => exact itemCompletion_storeLaw h hs
    case powerOn i l => exact (execPowerOn_cut h).storeLaw hs
    case busReset i l => exact (execBusReset_cut h).elim (·.storeLaw hs) (·.storeLaw hs)
    case busResetLineAsserted i => exact (execBusResetLineAsserted_cut h).elim (·.storeLaw hs) (·.storeLaw hs)
    case logicSupplyLoss i => exact (execLogicSupplyLoss_cut h).storeLaw hs
    case startUpScanEnd w => exact scanEnd_storeLaw h hs

/-- A step is a command with the rest of the queue, or a millisecond. -/
theorem step_cases (h : step s = .next t) :
    (∃ c rest, s.pending = c :: rest ∧ exec c { s with pending := rest } = .next t) ∨ t = s.tick := by
  unfold step at h
  split at h
  · next c rest hp => exact .inl ⟨c, rest, hp, h⟩
  · exact .inr (Host.Outcome.next.inj h).symm

theorem step_storeLaw (h : step s = .next t) (hs : StoreLaw s) : StoreLaw t := by
  rcases step_cases h with ⟨c, rest, -, h⟩ | rfl
  · exact exec_storeLaw h hs
  · exact (tick_frame s).storeLaw hs

/-! ### The laws of the table -/

theorem StoreFrame.tableLaw (h : StoreFrame s t) (hs : TableLaw s) : TableLaw t := by
  obtain ⟨hphase, hslots, hfreed, hdigests, harray, -⟩ := h
  unfold TableLaw FreedLaw DigestLaw at *
  rwa [hphase, hslots, hfreed, hdigests, harray]

/-- Where nothing is freed the law of the freed slots holds. -/
theorem freedLaw_nil (h : s.freed = []) : FreedLaw s := by
  unfold FreedLaw
  rw [h]
  exact ⟨by simp, .nil, fun _ => rfl⟩

theorem CutBy.tableLaw {i : Interruption} (h : CutBy i s t) (hs : StoreLaw t) : TableLaw t := by
  have hslots : KeysUnique t.slots ∧ BodiesInOrder t.slots := by
    rcases h.slots with h | h
    · rw [h]; exact ⟨.nil, by simp [BodiesInOrder]⟩
    · rw [h]; exact ⟨keysUnique_readSlots _, bodiesInOrder_readSlots _⟩
  exact ⟨hs.1, hslots.1, freedLaw_nil h.freed, hslots.2, fun hr => absurd hr h.phase⟩

/-- The changes of the item being written: their results, whatever they are, are a completion of them. -/
theorem writer_completionOf {ch : ChannelNo} {number : Nat} {plans : List SlotPlan} {results : List Bool}
    (hm : workingWf s.slots = true) (hprop : ProposalLaw s) (hwork : WorkLaw s)
    (hw : s.writer = some (.proposal ch number plans results)) :
    ∃ l, ∀ all : List SlotResult, all.map Prod.fst = plans → CompletionOf s.slots l all := by
  obtain ⟨-, -, -, -, hkeys, -⟩ := hprop
  obtain ⟨hfit, -, hplans, -⟩ := hwork
  obtain ⟨-, p, hp, -, hplan⟩ := hplans ch number plans results hw
  have hnodup := (List.nodup_flatMap.1 hkeys).1 p hp
  refine ⟨p.changes, fun all hall => ⟨?_, hnodup, (hfit p hp).2⟩⟩
  rw [hall]
  exact planSlots_spec hm hnodup (fun _ h => h) hplan

/-- A freed slot's write is no CREATE's, which takes a FREE one. -/
theorem not_create_of_listed {m : SlotMap Entry} {l : List Change} {all : List SlotResult} (h : CompletionOf m l all)
    {d : SlotResult} (hd : d ∈ all) {e : Entry} (he : slotGet m d.1.slot = some e) : d.1.kind ≠ .create := by
  obtain ⟨c, -, hcd⟩ := h.change hd
  intro hk
  exact hcd.free (hcd.kind.symm.trans hk) (List.mem_map_of_mem (f := Prod.fst) (mem_of_slotGet he))

/-- The headers of the freed slots after a slot write of the item being written. -/
theorem headless_freed {l : List Change} {all : List SlotResult} (h : CompletionOf s.slots l all) (hf : FreedLaw s)
    (ha : s.array.wf = true) {p : SlotPlan} (hp : p ∈ all.map Prod.fst) (o : SlotOutcome) :
    ∀ n ∈ s.freed, (((writeSlotPlan p o s.array).1).slot n).Headless := by
  intro n hn
  obtain ⟨⟨e, he, -⟩, hhead⟩ := hf.1 n hn
  obtain ⟨d, hd, rfl⟩ := List.mem_map.1 hp
  exact headless_writeSlotPlan o ha (fun hnp => not_create_of_listed h hd (hnp ▸ he)) hhead

theorem slotCompletion_tableLaw {o : SlotOutcome} (h : exec (.slotWriteCompletion o) s = .next t) (hs : StoreLaw s)
    (hprop : ProposalLaw s) (htab : TableLaw s) (hwork : WorkLaw s) : TableLaw t := by
  rcases execSlotWriteCompletion_cases h with rfl | ⟨ch, number, plans, results, p, hw, hp, rfl⟩
  · exact htab
  · obtain ⟨hslots, hunique, hfreed, hrest⟩ := htab
    obtain ⟨l, hl⟩ := writer_completionOf hslots hprop hwork hw
    have hof := hl (plans.map fun p => (p, true)) (by simp [Function.comp_def])
    have hhead := headless_freed hof hfreed hs.2.1 (p := p) (by simpa [Function.comp_def] using List.mem_of_getElem? hp) o
    exact ⟨hslots, hunique, ⟨fun n hn => ⟨(hfreed.1 n hn).1, hhead n hn⟩, hfreed.2⟩, hrest⟩

/-- What a freed slot of the table is left holding by its own result: a DAMAGED entry with a partner (R10). -/
theorem freed_resultLeaves {m : SlotMap Entry} {l : List Change} {all : List SlotResult} {freed : List Nat}
    (h : CompletionOf m l all) (hm : workingWf m = true) {d : SlotResult} (hd : d ∈ tableResults freed all)
    (hf : d.1.slot ∈ freed) {e e' : Entry} (he : slotGet m d.1.slot = some e) (hp : e.partner ≠ none)
    (hl : resultLeaves (tableResults freed all) d = some e') : e'.body = none ∧ e'.partner ≠ none := by
  have ht := h.tableResults freed
  have hcreate := not_create_of_listed ht hd he
  obtain ⟨c, -, hcd⟩ := ht.change hd
  obtain ⟨x, hx, -, hxp⟩ := hcd.stands (hcd.kind ▸ hcreate)
  obtain rfl : x = e := Option.some.inj ((slotGet_of_mem hm hx).symm.trans he)
  obtain ⟨-, -, hpart, hbody⟩ := resultLeaves_some hl
  refine ⟨?_, by rw [hpart, ← hxp]; exact hp⟩
  rcases hbody with hbody | ⟨hok, hretire, -⟩
  · exact hbody
  · have hset : d.1.kind = .set := by
      cases hk : d.1.kind
      · rfl
      · exact absurd hk hcreate
      · exact absurd hk hretire
    obtain ⟨d', -, rfl⟩ := List.mem_map.1 hd
    dsimp only at hok hset hf
    simp [pairFreed, hset, hf] at hok

/-- A verified RETIRE that leaves its entry leaves it DAMAGED, with a partner (R10). -/
theorem retired_resultLeaves {all : List SlotResult} {p : SlotPlan} (hk : p.kind = .retire) {e : Entry}
    (hl : resultLeaves all (p, true) = some e) : e.body = none ∧ e.partner ≠ none := by
  obtain ⟨-, -, hpart, hbody⟩ := resultLeaves_some hl
  refine ⟨hbody.elim id fun h => absurd hk h.2.1, ?_⟩
  rw [hpart]
  intro (hnone : p.partner = none)
  have hfail : mateFailed all p = false := List.any_eq_false.2 fun d _ => by simp [SlotPlan.mates, hnone]
  rw [resultLeaves_none.2 ⟨hk, rfl, hfail⟩] at hl
  cases hl

/-- R10 after a completion: the freed slots that the table still holds. -/
theorem freed_entries {m : SlotMap Entry} {l : List Change} {all : List SlotResult} {freed : List Nat}
    (h : CompletionOf m l all) (hm : workingWf m = true) (hu : KeysUnique m)
    (hf : ∀ n ∈ freed, ∃ e, slotGet m n = some e ∧ e.body = none ∧ e.partner ≠ none) :
    ∀ n ∈ freedAfter freed all (applyResults (tableResults freed all) m),
      ∃ e, slotGet (applyResults (tableResults freed all) m) n = some e ∧ e.body = none ∧ e.partner ≠ none := by
  intro n hn
  obtain ⟨hlisted, hn⟩ := mem_freedAfter.1 hn
  obtain ⟨e', he'⟩ := Option.ne_none_iff_exists'.1 (mt slotGet_eq_none.1 (not_not.2 hlisted))
  refine ⟨e', he', ?_⟩
  have hplaced := (h.tableResults freed).placed hm hu
  rcases slotGet_applyResults_cases hm hplaced.toResultSlots he' with ⟨d, hd, rfl, hl⟩ | ⟨hne, hl⟩
  · rcases hn with hn | ⟨p, hp, hslot, hretire⟩
    · obtain ⟨e, he, -, hpart⟩ := hf _ hn
      exact freed_resultLeaves h hm hd hn he hpart hl
    · have hp' : (p, true) ∈ tableResults freed all := List.mem_map.2 ⟨_, hp, by simp [hretire]⟩
      obtain rfl := List.inj_on_of_nodup_map hplaced.nodup hd hp' hslot.symm
      exact retired_resultLeaves hretire hl
  · rcases hn with hn | ⟨p, hp, hslot, hretire⟩
    · obtain ⟨e, he, hrest⟩ := hf _ hn
      rwa [Option.some.inj (he.symm.trans hl)] at hrest
    · have hp' : (p, true) ∈ tableResults freed all := List.mem_map.2 ⟨_, hp, by simp [hretire]⟩
      exact absurd hslot (hne _ hp')

theorem headless_of_free {c : NvSlot} (h : c.header = .free) : c.Headless := fun k cls q => by rw [h]; exact Header.noConfusion

/-- The slot of a RETIRE of the item that verified reads as no entry's once the last slot write is done. -/
theorem headless_retired {ch : ChannelNo} {number : Nat} {plans : List SlotPlan} {results : List Bool}
    {p q : SlotPlan} {o : SlotOutcome} (ha : s.array.wf = true) (hwork : WorkLaw s)
    (hw : s.writer = some (.proposal ch number plans results)) (hlen : results.length + 1 = plans.length)
    (hp : plans[results.length]? = some p) (hn : (plans.map SlotPlan.slot).Nodup)
    (hq : (q, true) ∈ finalResults plans results p o s.array) (hk : q.kind = .retire) :
    (((writeSlotPlan p o s.array).1).slot q.slot).Headless := by
  obtain ⟨-, -, -, hretired⟩ := hwork
  rcases mem_finalResults hlen hp hq with hq | hq
  · refine headless_writeSlotPlan o ha (fun hslot => ?_) (headless_of_free (hretired _ _ _ _ _ hw hq hk))
    obtain rfl := List.inj_on_of_nodup_map hn (List.of_mem_zip hq).1 (List.mem_of_getElem? hp) hslot
    rw [hk]
    exact ChangeKind.noConfusion
  · obtain ⟨rfl, hv⟩ := Prod.mk.inj hq
    exact headless_of_free (header_of_retired ha hk hv.symm)

theorem itemCompletion_tableLaw {o : SlotOutcome} (h : exec (.proposalItemCompletion o) s = .next t)
    (hs : StoreLaw s) (hprop : ProposalLaw s) (htab : TableLaw s) (hwriting : WritingLaw s) (hwork : WorkLaw s) :
    TableLaw t := by
  rcases execProposalItemCompletion_cases h with rfl | ⟨ch, number, plans, results, p, hw, hlen, hp, ht⟩
  · exact htab
  · obtain ⟨hm, hu, hfreed, hbodies, hrun⟩ := htab
    have hphase : s.phase = .running := by
      obtain ⟨-, -, -, hidle⟩ := hwriting
      by_contra hne
      obtain ⟨-, -, hnone, -⟩ := hidle hne
      rw [hnone] at hw
      cases hw
    obtain ⟨hpartners, hdigest⟩ := hrun hphase
    obtain ⟨hphase', hslots, hfreed', hdigests, harray, -⟩ := ht ▸ endItem_to ch number plans results p o s
    have hall := finalResults_plans p o s.array hlen
    obtain ⟨l, hl⟩ := writer_completionOf hm hprop hwork hw
    have hof := hl _ hall
    have htable := hof.tableResults s.freed
    have hplaced := htable.placed hm hu
    have hm' : workingWf t.slots = true := hslots ▸ workingWf_applyResults hm hplaced.inArray
    refine ⟨hm', hslots ▸ hplaced.keysUnique hm hu, ⟨fun n hn => ⟨?_, ?_⟩, ?_, ?_⟩, ?_, fun _ => ⟨?_, ?_⟩⟩
    · rw [hslots]
      exact freed_entries hof hm hu (fun n hn => (hfreed.1 n hn).1) n (hfreed' ▸ hn)
    · rw [harray]
      obtain ⟨-, hn | ⟨q, hq, rfl, hk⟩⟩ := mem_freedAfter.1 (hfreed' ▸ hn)
      · exact headless_freed hof hfreed hs.2.1 (hall.symm ▸ List.mem_of_getElem? hp) o n hn
      · exact headless_retired hs.2.1 hwork hw hlen hp (hall ▸ hof.plans.slots) hq hk
    · rw [hfreed', ← hslots]
      exact (slotsRise_pairwise hm').sublist List.filter_sublist
    · exact fun hne => absurd (hphase'.trans hphase) hne
    · rw [hslots]
      exact htable.bodiesInOrder hm hu hbodies
    · rw [hslots]
      exact htable.partnersLaw hm hu hpartners
    · unfold DigestLaw at hdigest ⊢
      rw [hdigests, hslots, hdigest, ← hplaced.correctDigests hm hu, tableResults_map SlotPlan.key]

theorem scanEnd_tableLaw {w : ScanWrites} (h : exec (.startUpScanEnd w) s = .next t) (hs : StoreLaw s)
    (htab : TableLaw s) : TableLaw t := by
  rcases execStartUpScanEnd_cases h with rfl | ⟨hphase, hto⟩
  · exact htab
  · obtain ⟨hm, hu, ⟨-, -, hfreed⟩, hbodies, -⟩ := htab
    have hnil : t.freed = [] := hto.freed.trans (hfreed (by rw [hphase]; exact Phase.noConfusion))
    refine ⟨(scanEnd_storeLaw h hs).1, ?_, freedLaw_nil hnil, ?_, fun _ => ⟨?_, ?_⟩⟩
    · rw [hto.slots]; exact keysUnique_partnerPass hu
    · rw [hto.slots]; exact bodiesInOrder_partnerPass hbodies
    · rw [hto.slots]; exact partnersLaw_partnerPass hu
    · unfold DigestLaw; rw [hto.slots, hto.digests]

theorem recordCompletion_tableLaw {o : RecordOutcome} (h : exec (.recordWriteCompletion o) s = .next t)
    (htab : TableLaw s) : TableLaw t := by
  rcases execRecordWriteCompletion_cases h with rfl | ⟨j, -, rfl⟩
  · exact htab
  · refine (StoreFrame.takeItem _).tableLaw ?_
    have hslot : ∀ n, (leaveRecord j (recordLeft o) s.array).slot n = s.array.slot n := by
      intro n; cases j <;> rfl
    obtain ⟨hm, hu, ⟨hfreed, hfreed'⟩, hrest⟩ := htab
    refine ⟨hm, hu, ⟨fun n hn => ⟨(hfreed n hn).1, ?_⟩, hfreed'⟩, hrest⟩
    show ((leaveRecord j (recordLeft o) s.array).slot n).Headless
    rw [hslot]
    exact (hfreed n hn).2

/-- R1, R5, R7, R10 and R27 at every command. -/
theorem exec_tableLaw {c : Instr} (h : exec c s = .next t) (hs : StoreLaw s) (hprop : ProposalLaw s)
    (htab : TableLaw s) (hwriting : WritingLaw s) (hwork : WorkLaw s) : TableLaw t := by
  have hs' := exec_storeLaw h hs
  cases hc : isStoreEvent c with
  | false => exact (exec_frame hc h).tableLaw htab
  | true =>
    cases c <;> simp only [isStoreEvent, reduceCtorEq] at hc
    case recordWriteCompletion o => exact recordCompletion_tableLaw h htab
    case slotWriteCompletion o => exact slotCompletion_tableLaw h hs hprop htab hwork
    case proposalItemCompletion o => exact itemCompletion_tableLaw h hs hprop htab hwriting hwork
    case powerOn i l => exact (execPowerOn_cut h).tableLaw hs'
    case busReset i l => exact (execBusReset_cut h).elim (·.tableLaw htab) (·.tableLaw hs')
    case busResetLineAsserted i =>
      exact (execBusResetLineAsserted_cut h).elim (·.tableLaw htab) (·.tableLaw hs')
    case logicSupplyLoss i => exact (execLogicSupplyLoss_cut h).tableLaw hs'
    case startUpScanEnd w => exact scanEnd_tableLaw h hs htab

theorem step_tableLaw (h : step s = .next t) (hs : StoreLaw s) (hprop : ProposalLaw s) (htab : TableLaw s)
    (hwriting : WritingLaw s) (hwork : WorkLaw s) : TableLaw t := by
  rcases step_cases h with ⟨c, rest, -, h⟩ | rfl
  · exact exec_tableLaw h hs hprop htab hwriting hwork
  · exact (tick_frame s).tableLaw htab

/-- Settles O59: the store's form is kept by every command's frame or by the store's own commands one by one; the laws of
the table by the completion key by key, by the reading of the array, and by the partner pass. -/
theorem stepKeepsStoreLaw : Obligations.StepKeepsStoreLaw :=
  ⟨fun _ _ hs h => step_storeLaw h hs, fun _ _ hs hprop htab hwriting hwork h =>
    step_tableLaw h hs hprop htab hwriting hwork⟩

end Sys2Proof.Machine
end

section
/-! PROOFS. O6: a request whose argument is out of its range answers BAD_ARGUMENT and changes nothing else. -/

namespace Sys2Proof.Machine

/-! ### Fields out of their ranges -/

theorem toNat_eq_zero_of {n : Nat} {b : BitVec n} (h : b = 0) : b.toNat = 0 := by simp [h]

theorem stationOf_out {n : Nat} (h : n = 0 ∨ 32 < n) : stationOf n = none := dif_neg (by omega)

theorem sectionOf_out {n : Nat} (h : n = 0 ∨ 4 < n) : sectionOf n = none := dif_neg (by omega)

theorem formatOf_out {n : Nat} (h : 15 < n) : formatOf n = none := dif_neg (by omega)

theorem productFormatOf_out {n : Nat} (h : n = 0 ∨ 15 < n) : productFormatOf n = none := by
  unfold productFormatOf
  split
  · rfl
  · exact formatOf_out (by omega)

theorem paramOf_out {n : Nat} (h : 1023 < n) : paramOf n = none := dif_neg (by omega)

theorem roleOf_out {n : Nat} (h : n = 0 ∨ 3 < n) : roleOf n = none := by
  unfold roleOf
  rw [if_neg (by omega), if_neg (by omega), if_neg (by omega)]

theorem classOf_out {n : Nat} (h : 2 < n) : classOf n = none := by
  unfold classOf
  rw [if_neg (by omega), if_neg (by omega), if_neg (by omega)]

theorem boundOf_out {n : Nat} (v : Word) (h : 2 < n) : boundOf n v = none := by
  unfold boundOf
  rw [if_neg (by omega), if_neg (by omega), if_neg (by omega)]

theorem byteOut {b : Byte} {n : Nat} (h : b = 0 ∨ n < b.toNat) : b.toNat = 0 ∨ n < b.toNat :=
  h.imp toNat_eq_zero_of id

theorem stationArg_out {a : Args} (h : stationOut a) : stationArg a = none := stationOf_out (byteOut h)

theorem sectionOf_argByte_out {a : Args} {n : Nat} (h : sectionOut a n) : sectionOf (argByte a n).toNat = none :=
  sectionOf_out (byteOut h)

theorem sectionArg_out {a : Args} (h : sectionOut a 0) : sectionArg a = none := sectionOf_argByte_out h

theorem productFormatOf_argByte_out {a : Args} {n : Nat} (h : argByte a n = 0 ∨ 15 < (argByte a n).toNat) :
    productFormatOf (argByte a n).toNat = none :=
  productFormatOf_out (byteOut h)

/-- A key of which one field is out of range is no key. -/
theorem keyArg_out {a : Args} (h : keyOut a) : keyArg a = none := by
  have hfields : stationOf (argByte a 0).toNat = none ∨ formatOf (argByte a 1).toNat = none ∨
      paramOf (argHalf a 2).toNat = none := by
    rcases h with h | h | h | h
    · exact .inl (stationOf_out (.inl (toNat_eq_zero_of h)))
    · exact .inl (stationOf_out (.inr h))
    · exact .inr (.inl (formatOf_out h))
    · exact .inr (.inr (paramOf_out h))
  unfold keyArg
  split
  · simp_all
  · rfl

theorem byte_ne_all {b : Byte} (h : b ≠ 0xFF) : b.toNat ≠ 0xFF := fun hb => h (BitVec.eq_of_toNat_eq hb)

theorem stationFilterOf_out {b : Byte} (h : b = 0 ∨ 32 < b.toNat) (hall : b ≠ 0xFF) :
    stationFilterOf b.toNat = none := by
  unfold stationFilterOf
  rw [if_neg (byte_ne_all hall), stationOf_out (byteOut h)]
  rfl

theorem formatFilterOf_out {b : Byte} (h : 15 < b.toNat) (hall : b ≠ 0xFF) : formatFilterOf b.toNat = none := by
  unfold formatFilterOf
  rw [if_neg (byte_ne_all hall), formatOf_out h]
  rfl

/-! ### The owning blocks -/

/-- The owning block refuses the request with BAD_ARGUMENT, in every state, and leaves the state. -/
def Refuses (run : State → State × Reply) : Prop := ∀ s, run s = (s, .refuse .badArgument)

variable {a : Args}

theorem runSignOn_out (ch : ChannelNo)
    (h : argByte a 0 = 0 ∨ 3 < (argByte a 0).toNat ∨ 999999 < (argWord a 1).toNat) : Refuses (runSignOn ch a) := by
  intro s
  simp only [runSignOn]
  split
  · rfl
  · next role hrole =>
    have hcode : Config.largestCode < (argWord a 1).toNat := by
      rcases h with h | h | h
      · rw [roleOf_out (.inl (toNat_eq_zero_of h))] at hrole; cases hrole
      · rw [roleOf_out (.inr h)] at hrole; cases hrole
      · exact h
    rw [if_pos hcode]

theorem runListEntries_out (ch : ChannelNo)
    (h : (stationOut a ∧ argByte a 0 ≠ 0xFF) ∨ (15 < (argByte a 1).toNat ∧ argByte a 1 ≠ 0xFF)) :
    Refuses (runListEntries ch a) := by
  intro s
  simp only [runListEntries]
  rcases h with ⟨h, hall⟩ | ⟨h, hall⟩
  · rw [stationFilterOf_out h hall]
  · rw [formatFilterOf_out h hall]
    split <;> simp_all

theorem runDraftCreate_out (ch : ChannelNo) (h : keyOut a ∨ 2 < (argByte a 8).toNat) :
    Refuses (runDraftCreate ch a) := by
  intro s
  simp only [runDraftCreate]
  rcases h with h | h
  · rw [keyArg_out h]
  · rw [classOf_out h]
    split <;> simp_all

theorem runDraftBounds_out (ch : ChannelNo) (h : (argByte a 0).toNat % 4 = 3 ∨ 11 < (argByte a 0).toNat) :
    Refuses (runDraftBounds ch a) := by
  intro s
  simp only [runDraftBounds]
  rcases h with h | h
  · rw [boundOf_out _ (by omega)]
  · rw [boundOf_out (n := (argByte a 0).toNat / 4) _ (by omega)]
    split <;> simp_all

theorem answerReadProposal_out (h : argByte a 0 = 0 ∨ 1 < (argByte a 1).toNat ∨ 3 < (argByte a 2).toNat) (s : State) :
    answerReadProposal a s = .refuse .badArgument :=
  if_pos (h.imp toNat_eq_zero_of id)

theorem runEnroll_out (h : stationOut a ∨ sectionOut a 1 ∨ argByte a 2 = 0 ∨ 250 < (argByte a 2).toNat) :
    Refuses (runEnroll a) := by
  intro s
  simp only [runEnroll]
  split
  · next st sec hst hsec =>
    have hwindow : (argByte a 2).toNat < 1 ∨ 250 < (argByte a 2).toNat := by
      rcases h with h | h | h | h
      · rw [stationArg_out h] at hst; cases hst
      · rw [sectionOf_argByte_out h] at hsec; cases hsec
      · exact .inl (by simp [h])
      · exact .inr h
    rw [if_pos hwindow]
  · rfl

theorem runReportValue_out (h : stationOut a ∨ 1023 < (argHalf a 1).toNat) : Refuses (runReportValue a) := by
  intro s
  simp only [runReportValue]
  rcases h with h | h
  · rw [stationArg_out h]
  · rw [paramOf_out h]
    split <;> simp_all

theorem runReportDigest_out
    (h : stationOut a ∨ argByte a 1 = 0 ∨ 15 < (argByte a 1).toNat ∨ 1024 < (argHalf a 2).toNat) :
    Refuses (runReportDigest a) := by
  intro s
  simp only [runReportDigest]
  split
  · next st f hst hf =>
    have hcount : 1024 < (argHalf a 2).toNat := by
      rcases h with h | h | h | h
      · rw [stationArg_out h] at hst; cases hst
      · rw [productFormatOf_argByte_out (.inl h)] at hf; cases hf
      · rw [productFormatOf_argByte_out (.inr h)] at hf; cases hf
      · exact h
    rw [if_pos hcount]
  · rfl

theorem answerReadDivergence_out (h : stationOut a ∨ 7 < (argByte a 1).toNat) (s : State) :
    answerReadDivergence a s = .refuse .badArgument := by
  simp only [answerReadDivergence]
  rcases h with h | h
  · rw [stationArg_out h]
  · split
    · rfl
    · exact if_pos h

theorem runChangeover_out (h : sectionOut a 0 ∨ argByte a 1 = 0 ∨ 15 < (argByte a 1).toNat) :
    Refuses (runChangeover a) := by
  intro s
  simp only [runChangeover]
  rcases h with h | h
  · rw [sectionArg_out h]
  · rw [productFormatOf_argByte_out h]
    split <;> simp_all

/-- Every request of `argumentOut` refuses the argument. -/
theorem run_argumentOut {i : Instr} {ch : ChannelNo} {code : Byte} {r : RequestSpec}
    (hi : requestParts i = some (ch, code, a)) (hr : requestOf code.toNat = some r) (h : argumentOut a i) :
    Refuses (r.run ch a) := by
  cases i <;> simp only [requestParts, argumentOut, Option.some.injEq, Prod.mk.injEq, reduceCtorEq] at hi h
  all_goals
    obtain ⟨rfl, rfl, rfl⟩ := hi
    obtain rfl := Option.some.inj hr.symm
  case signOn => exact runSignOn_out _ h
  case lookup => intro s; simp only [lookupRequest, answerLookup, keyArg_out h]
  case lookupExact => intro s; simp only [lookupExactRequest, answerLookupExact, keyArg_out h]
  case readLimits => intro s; simp only [readLimitsRequest, answerReadLimits, keyArg_out h]
  case checkValue => intro s; simp only [checkValueRequest, answerCheckValue, keyArg_out h]
  case listEntries => exact runListEntries_out _ h
  case draftSet => intro s; simp only [draftSetRequest, runDraftSet, keyArg_out h]
  case draftCreate => exact runDraftCreate_out _ h
  case draftRetire => intro s; simp only [draftRetireRequest, runDraftRetire, keyArg_out h]
  case draftBounds => exact runDraftBounds_out _ h
  case draftPartner => intro s; simp only [draftPartnerRequest, runDraftPartner, paramOf_out h]
  case reject => intro s; exact if_pos (toNat_eq_zero_of h)
  case withdraw => intro s; exact if_pos (toNat_eq_zero_of h)
  case readProposal => intro s; exact congrArg _ (answerReadProposal_out h s)
  case enroll => exact runEnroll_out h
  case unenroll => intro s; simp only [unenrollRequest, runUnenroll, stationArg_out h]
  case reportValue => exact runReportValue_out h
  case reportDigest => exact runReportDigest_out h
  case hold => intro s; simp only [holdRequest, runHold, stationArg_out h]
  case releaseHold => intro s; simp only [releaseHoldRequest, runReleaseHold, stationArg_out h]
  case readStation => intro s; simp only [readStationRequest, answerReadStation, stationArg_out h]
  case readDivergence => intro s; exact congrArg _ (answerReadDivergence_out h s)
  case changeover => exact runChangeover_out h
  case abortChangeover => intro s; simp only [abortChangeoverRequest, runAbortChangeover, sectionArg_out h]
  case setSection => intro s; simp only [setSectionRequest, runSetSection, sectionArg_out h]
  case readSection => intro s; simp only [readSectionRequest, answerReadSection, sectionArg_out h]
  case setOutputMode => intro s; simp only [setOutputModeRequest, runSetOutputMode, sectionArg_out h]

/-- Settles O6: every owning block refuses an argument out of its range before it does anything else. -/
theorem outOfRangeArguments : Obligations.OutOfRangeArguments := by
  intro i ch code a s used roles _ hi hl hp hout
  obtain ⟨r, hr, -⟩ := requestOf_listed hl
  exact exec_answers hi hr hl hp (run_argumentOut hi hr hout _)

end Sys2Proof.Machine
end

section
/-! PROOFS. O7, O8, O9 and O10: the readings of the parameter table and of the digests. -/

namespace Sys2Proof.Machine

variable {ch : ChannelNo} {a : Args} {s : State} {k : Key} {code : AnswerCode} {result : List Byte}

/-! ### The readings as they are answered -/

theorem exec_lookup (hp : Passes 4 everyRole ch a s) (hk : keyArg a = some k)
    (hr : lookupReply (resolve s.slots k) (lookupFlags s k) = .now code result) :
    exec (.lookup ch a) s = .next (answered ch code result s) :=
  exec_answers (r := lookupRequest) rfl rfl rfl hp
    (congrArg (Prod.mk _) (show answerLookup a s = _ by simp only [answerLookup, hk, hr]))

theorem exec_lookupExact (hp : Passes 4 everyRole ch a s) (hk : keyArg a = some k)
    (hr : lookupReply (entryAt s.slots k) (entryFlags s [k] false (entryAt s.slots k)) = .now code result) :
    exec (.lookupExact ch a) s = .next (answered ch code result s) :=
  exec_answers (r := lookupExactRequest) rfl rfl rfl hp
    (congrArg (Prod.mk _) (show answerLookupExact a s = _ by simp only [answerLookupExact, hk, hr]))

theorem exec_readLimits (hp : Passes 5 everyRole ch a s) (hr : answerReadLimits a s = .now code result) :
    exec (.readLimits ch a) s = .next (answered ch code result s) :=
  exec_answers (r := readLimitsRequest) rfl rfl rfl hp (congrArg (Prod.mk _) (show answerReadLimits a s = _ from hr))

theorem exec_checkValue {v : Verdict} {revision : Half} (hp : Passes 8 everyRole ch a s) (hk : keyArg a = some k)
    (hv : checkVerdict (resolve s.slots k) (argWord a 4) = v)
    (hr : ((resolve s.slots k).map Entry.statedRevision).getD 0 = revision) :
    exec (.checkValue ch a) s = .next (answered ch .done ([v.byte, lookupFlags s k] ++ halfBytes revision) s) :=
  exec_answers (r := checkValueRequest) rfl rfl rfl hp
    (congrArg (Prod.mk _) (show answerCheckValue a s = _ by simp only [answerCheckValue, hk, hv, hr]; rfl))

theorem exec_readDigest (hp : Passes 2 everyRole ch a s) (hr : answerReadDigest a s = .now code result) :
    exec (.readDigest ch a) s = .next (answered ch code result s) :=
  exec_answers (r := readDigestRequest) rfl rfl rfl hp (congrArg (Prod.mk _) (show answerReadDigest a s = _ from hr))

/-! ### LOOKUP and LOOKUP_EXACT -/

theorem lookupFlags_some {e : Entry} (h : resolve s.slots k = some e) :
    lookupFlags s k = entryFlags s [k, e.key] (decide (k.format ≠ 0 ∧ e.key.format = 0)) (some e) := by
  simp only [lookupFlags, h]

theorem lookupFlags_none (h : resolve s.slots k = none) : lookupFlags s k = entryFlags s [k, k.base] false none := by
  simp only [lookupFlags, h]

theorem entryFlags_active {e : Entry} {b : Body} (marks : List Key) (fromBase : Bool) (hb : e.body = some b) :
    entryFlags s marks fromBase (some e) = bitsByte [fromBase, b.low.isSome, b.high.isSome, e.partner.isSome,
      marks.any s.proposedMark, marks.any s.writingMark] := by
  simp [entryFlags, hb]

theorem entryFlags_damaged {e : Entry} (marks : List Key) (fromBase : Bool) (hb : e.body = none) :
    entryFlags s marks fromBase (some e) = bitsByte [fromBase, false, false, e.partner.isSome,
      marks.any s.proposedMark, marks.any s.writingMark] := by
  simp [entryFlags, hb]

theorem entryFlags_none (marks : List Key) (fromBase : Bool) :
    entryFlags s marks fromBase none = bitsByte [fromBase, false, false, false,
      marks.any s.proposedMark, marks.any s.writingMark] := by
  simp [entryFlags]

theorem lookupReply_active {e : Entry} {b : Body} (flags : Byte) (hb : e.body = some b) :
    lookupReply (some e) flags = .now .done
      (wordBytes b.value ++ halfBytes b.revision ++ [e.cls.byte] ++ halfBytes b.tolerance ++ [flags]) := by
  simp only [lookupReply, hb, Reply.done]

theorem lookupReply_damaged {e : Entry} (flags : Byte) (hb : e.body = none) :
    lookupReply (some e) flags = .now .damaged [0, 0, 0, 0, 0, 0, e.cls.byte, 0, 0, flags] := by
  simp only [lookupReply, hb]
  rfl

theorem lookupReply_none (flags : Byte) :
    lookupReply none flags = .now .noEntry [0, 0, 0, 0, 0, 0, 0, 0, 0, flags] := rfl

theorem marks_pair (f : Key → Bool) (k k' : Key) : [k, k'].any f = (f k || f k') := by simp

theorem marks_single (f : Key → Bool) (k : Key) : [k].any f = f k := by simp

/-! ### What a key resolves to, and its marks -/

theorem resolve_exact {m : SlotMap Entry} {e : Entry} (hu : KeysUnique m) (he : e ∈ m.map Prod.snd) :
    resolve m e.key = some e := by
  simp only [resolve, entryAt_of_mem hu he]

theorem resolve_base {m : SlotMap Entry} (h : entryAt m k = none) :
    resolve m k = if k.format = 0 then none else entryAt m k.base := by
  simp only [resolve, h]

theorem isWriting_iff {p : Proposal} : p.isWriting = true ↔ ∃ ch, p.state = .writing ch := by
  unfold Proposal.isWriting
  cases p.state <;> simp

theorem not_isWriting_iff {p : Proposal} : p.isWriting = false ↔ ∃ ms, p.state = .awaiting ms := by
  unfold Proposal.isWriting
  cases p.state <;> simp

theorem holds_iff {p : Proposal} : p.holds k = true ↔ ∃ c ∈ p.changes, c.key = k := by
  simp [Proposal.holds]

/-- Settles O7: the replies field by field, the resolution key by key, and the marks by the proposals' states. -/
theorem lookupAnswers : Obligations.LookupAnswers := by
  refine ⟨fun ch a s k hp hk => ⟨?_, ?_, ?_, ?_, ?_, ?_⟩, fun m k hu => ⟨fun e => entryAt_iff hu, ?_, fun hnone => ?_⟩,
    fun s k => ⟨?_, ?_⟩⟩
  · intro e b he hb
    rw [exec_lookup hp hk (by rw [he, lookupReply_active _ hb]), lookupFlags_some he, entryFlags_active _ _ hb,
      marks_pair, marks_pair]
  · intro e he hb
    rw [exec_lookup hp hk (by rw [he, lookupReply_damaged _ hb]), lookupFlags_some he, entryFlags_damaged _ _ hb,
      marks_pair, marks_pair]
  · intro he
    rw [exec_lookup hp hk (by rw [he, lookupReply_none]), lookupFlags_none he, entryFlags_none, marks_pair, marks_pair]
  · intro e b he hb
    rw [exec_lookupExact hp hk (by rw [he, lookupReply_active _ hb]), entryFlags_active _ _ hb, marks_single,
      marks_single]
  · intro e he hb
    rw [exec_lookupExact hp hk (by rw [he, lookupReply_damaged _ hb]), entryFlags_damaged _ _ hb, marks_single,
      marks_single]
  · intro he
    rw [exec_lookupExact hp hk (by rw [he, lookupReply_none]), entryFlags_none, marks_single, marks_single]
  · rintro e he rfl
    exact resolve_exact hu he
  · have hk := entryAt_none.2 hnone
    rw [resolve_base hk]
    refine ⟨fun hf e he hek => ?_, fun h => ?_⟩
    · rw [if_neg hf]
      exact (entryAt_iff hu).2 ⟨he, hek⟩
    · split
      · rfl
      · next hf => exact entryAt_none.2 (h.resolve_left hf)
  · simp only [State.proposedMark, List.any_eq_true, Bool.and_eq_true, Bool.not_eq_true', not_isWriting_iff, holds_iff]
  · simp only [State.writingMark, List.any_eq_true, Bool.and_eq_true, isWriting_iff, holds_iff]

/-! ### READ_LIMITS and READ_DIGEST -/

theorem answerReadLimits_part {n : Byte} (hk : keyArg a = some k) (hn : argByte a 4 = n) (h : n.toNat ≤ 1) :
    answerReadLimits a s = limitsReply n.toNat (resolve s.slots k) (lookupFlags s k) := by
  subst hn
  simp only [answerReadLimits, hk, if_pos h]

/-- A change can alter a pair as R36 says it. -/
theorem alters_eq (m : SlotMap Entry) (k : Key) (st : StationNo) (f : FormatNo) :
    k.alters m st f = decide (k.station = st ∧
      (k.format = f ∨ (k.format = 0 ∧ entryAt m ⟨st, f, k.param⟩ = none))) := by
  rw [Bool.eq_iff_iff]
  simp [Key.alters]

theorem pairMark_awaiting (s : State) (st : StationNo) (f : FormatNo) :
    s.pairMark false st f = s.proposals.any fun p => !p.isWriting && p.changes.any fun c =>
      decide (c.key.station = st ∧ (c.key.format = f ∨ (c.key.format = 0 ∧ entryAt s.slots ⟨st, f, c.key.param⟩ = none))) := by
  simp only [State.pairMark, alters_eq, beq_false]

theorem pairMark_writing (s : State) (st : StationNo) (f : FormatNo) :
    s.pairMark true st f = s.proposals.any fun p => p.isWriting && p.changes.any fun c =>
      decide (c.key.station = st ∧ (c.key.format = f ∨ (c.key.format = 0 ∧ entryAt s.slots ⟨st, f, c.key.param⟩ = none))) := by
  simp only [State.pairMark, alters_eq, beq_true]

/-- Settles O8: each part of READ_LIMITS for each condition of the entry, and the pair of READ_DIGEST with its marks. -/
theorem limitsAndDigestReadings : Obligations.LimitsAndDigestReadings := by
  refine ⟨fun ch a s k hp hk => ⟨fun h => ?_, fun e b he hb => ⟨fun h => ?_, fun h => ?_⟩,
    fun e he hb => ⟨fun h => ?_, fun h => ?_⟩, fun he h => ?_⟩, fun ch a s hp => ⟨fun st f hst hf => ?_, fun h => ?_⟩⟩
  · exact exec_readLimits hp (by simp only [answerReadLimits, hk, if_neg (Nat.not_le.2 h)]; rfl)
  · exact exec_readLimits hp (by rw [answerReadLimits_part hk h (by decide), he]; simp [limitsReply, hb, Reply.done])
  · exact exec_readLimits hp (by rw [answerReadLimits_part hk h (by decide), he]; simp [limitsReply, hb, Reply.done])
  · exact exec_readLimits hp (by rw [answerReadLimits_part hk h (by decide), he]; simp [limitsReply, hb])
  · exact exec_readLimits hp (by rw [answerReadLimits_part hk h (by decide), he]; simp [limitsReply, hb])
  · exact exec_readLimits hp (by rw [answerReadLimits_part hk rfl h, he]; rfl)
  · refine exec_readDigest hp ?_
    simp only [answerReadDigest, stationArg, hst, hf, Reply.done, pairMark_awaiting, pairMark_writing]
  · refine exec_readDigest hp ?_
    simp only [answerReadDigest]
    split
    · next st f hst hf =>
      rcases h with h | h | h
      · rw [stationArg_out (.inl h)] at hst; cases hst
      · rw [stationArg_out (.inr h)] at hst; cases hst
      · rw [productFormatOf_argByte_out h] at hf; cases hf
    · rfl

/-! ### CHECK_VALUE -/

section Verdicts

variable {e : Entry} {b : Body} {v : Word}

theorem checkVerdict_below (hb : e.body = some b) (h : ∃ l, b.low = some l ∧ v.toInt < l.toInt) :
    checkVerdict (some e) v = .below := by
  obtain ⟨l, hl, hlt⟩ := h
  simp [checkVerdict, hb, aboveLow, hl, hlt]

theorem checkVerdict_above (hb : e.body = some b) (hlow : ∀ l, b.low = some l → l.toInt ≤ v.toInt)
    (h : ∃ l, b.high = some l ∧ l.toInt < v.toInt) : checkVerdict (some e) v = .above := by
  obtain ⟨l, hl, hlt⟩ := h
  simp [checkVerdict, hb, aboveLow_iff.2 hlow, belowHigh, hl, hlt]

theorem checkVerdict_within (hb : e.body = some b) (hlow : ∀ l, b.low = some l → l.toInt ≤ v.toInt)
    (hhigh : ∀ l, b.high = some l → v.toInt ≤ l.toInt) :
    checkVerdict (some e) v =
      if b.tolerance.toNat < (v.toInt - b.value.toInt).natAbs then .deviates else .inTolerance := by
  simp [checkVerdict, hb, aboveLow_iff.2 hlow, belowHigh_iff.2 hhigh, deviates]

end Verdicts

theorem halfBytes_zero : halfBytes 0 = [0, 0] := by decide

/-- Settles O9: the verdict of the first step of R19 that applies. -/
theorem checkValueSteps : Obligations.CheckValueSteps := by
  intro ch a s k hp hk
  refine ⟨fun he => ?_, fun e he hb => ?_, fun e b he hb => ?_⟩
  · rw [exec_checkValue hp hk (v := .noEntry) (revision := 0) (by rw [he]; rfl) (by rw [he]; rfl), halfBytes_zero]
    rfl
  · rw [exec_checkValue hp hk (v := .damaged) (revision := 0) (by rw [he]; simp [checkVerdict, hb])
      (by rw [he]; simp [Entry.statedRevision, hb]), halfBytes_zero]
    rfl
  · have hrev : ((resolve s.slots k).map Entry.statedRevision).getD 0 = b.revision := by
      rw [he]; simp [Entry.statedRevision, hb]
    have hanswer : ∀ v, checkVerdict (some e) (argWord a 4) = v → exec (.checkValue ch a) s =
        .next (answered ch .done ([v.byte, lookupFlags s k] ++ halfBytes b.revision) s) := fun v hv =>
      exec_checkValue hp hk (by rw [he, hv]) hrev
    refine ⟨fun h => hanswer .below (checkVerdict_below hb h), fun hlow =>
      ⟨fun h => hanswer .above (checkVerdict_above hb hlow h), fun hhigh => ?_⟩⟩
    have hwithin := checkVerdict_within hb hlow hhigh
    exact ⟨fun h => hanswer .deviates (hwithin.trans (if_pos h)),
      fun h => hanswer .inTolerance (hwithin.trans (if_neg (Nat.not_lt.2 h)))⟩

/-! ### The walk through the entries -/

theorem mem_of_smallest {l : List Entry} {e : Entry} (h : smallest l = some e) : e ∈ l := by
  induction l generalizing e with
  | nil => cases h
  | cons x l ih =>
    simp only [smallest] at h
    split at h
    · cases h; exact List.mem_cons_self
    · next e' he' =>
      split at h
      · cases h; exact List.mem_cons_of_mem _ (ih he')
      · cases h; exact List.mem_cons_self

theorem smallest_eq_none {l : List Entry} : smallest l = none ↔ l = [] := by
  cases l with
  | nil => simp [smallest]
  | cons x l =>
    simp only [smallest, reduceCtorEq, iff_false]
    split
    · simp
    · split <;> simp

/-- No entry of the list is before the smallest. -/
theorem smallest_le {l : List Entry} {e : Entry} (h : smallest l = some e) : ∀ x ∈ l, e.key.rank ≤ x.key.rank := by
  induction l generalizing e with
  | nil => cases h
  | cons y l ih =>
    simp only [smallest] at h
    split at h
    · next hnone => cases h; simp [smallest_eq_none.1 hnone]
    · next e' he' =>
      intro x hx
      split at h <;> cases h
      · next hlt =>
        rcases List.mem_cons.1 hx with rfl | hx
        · exact Nat.le_of_lt hlt
        · exact ih he' x hx
      · next hge =>
        rcases List.mem_cons.1 hx with rfl | hx
        · exact Nat.le_refl _
        · exact Nat.le_trans (Nat.le_of_not_lt hge) (ih he' x hx)

/-- An entry before all the others is the smallest. -/
theorem smallest_eq {l : List Entry} {e : Entry} (he : e ∈ l) (h : ∀ x ∈ l, x = e ∨ e.key.rank < x.key.rank) :
    smallest l = some e := by
  cases hs : smallest l with
  | none => rw [smallest_eq_none.1 hs] at he; cases he
  | some e' =>
    rcases h e' (mem_of_smallest hs) with rfl | hlt
    · rfl
    · exact absurd (smallest_le hs e he) (Nat.not_le.2 hlt)

/-- The key comes after the last key, if there is one (R23). -/
def Key.After (k : Key) (last : Option Key) : Prop := ∀ l, last = some l → l.rank < k.rank

theorem mem_walkAhead {m : SlotMap Entry} {st : Option StationNo} {f : Option FormatNo} {last : Option Key} {e : Entry} :
    e ∈ walkAhead m st f last ↔ e ∈ m.map Prod.snd ∧ e.key.passes st f = true ∧ e.key.After last := by
  unfold walkAhead Key.After
  rw [List.mem_filter, Bool.and_eq_true]
  cases last <;> simp

theorem walkAhead_length (m : SlotMap Entry) (st : Option StationNo) (f : Option FormatNo) :
    (walkAhead m st f none).length = (m.filter fun x => x.2.key.passes st f).length := by
  simp [walkAhead, List.filter_map, Function.comp_def]

theorem exec_listEntries {t : State} (hp : Passes 2 everyRole ch a s)
    (hr : runListEntries ch a (arrive ch ⟨0x14, a⟩ s) = (arrive ch ⟨0x14, a⟩ t, .now code result))
    (ht : settle s t = t) : exec (.listEntries ch a) s = .next (answered ch code result t) := by
  have := Passes.answer (r := listEntriesRequest) hp anyRole_iff hr
  rw [ht] at this
  exact congrArg _ this

theorem exec_nextEntry {t : State} (hp : Passes 0 everyRole ch a s)
    (hr : runNextEntry ch (arrive ch ⟨0x15, a⟩ s) = (arrive ch ⟨0x15, a⟩ t, .now code result))
    (ht : settle s t = t) : exec (.nextEntry ch a) s = .next (answered ch code result t) := by
  have := Passes.answer (r := nextEntryRequest) hp anyRole_iff hr
  rw [ht] at this
  exact congrArg _ this

/-! What LIST_ENTRIES and NEXT_ENTRY do with the request arrived, where no entry is ahead and where one is. -/

section Arrived

variable {st : Option StationNo} {f : Option FormatNo} {last : Option Key} {e : Entry} (req : Request)

theorem runListEntries_end (hst : stationFilterOf (argByte a 0).toNat = some st)
    (hf : formatFilterOf (argByte a 1).toNat = some f) (h : smallest (walkAhead s.slots st f none) = none) :
    runListEntries ch a (arrive ch req s) =
      (arrive ch req (s.setCursor ch (.entries st f none)), .now .listEnd []) := by
  simp only [runListEntries, hst, hf, arrive_slots, setCursor_arrive, h]

theorem runListEntries_found (hst : stationFilterOf (argByte a 0).toNat = some st)
    (hf : formatFilterOf (argByte a 1).toNat = some f) (h : smallest (walkAhead s.slots st f none) = some e) :
    runListEntries ch a (arrive ch req s) =
      (arrive ch req (s.setCursor ch (.entries st f (some e.key))),
        .now .done (keyBytes e.key ++ [e.conditionByte] ++
          numBytes (s.slots.filter fun x => x.2.key.passes st f).length)) := by
  simp only [runListEntries, hst, hf, arrive_slots, setCursor_arrive, h, walkAhead_length, Reply.done]

theorem runNextEntry_end (hc : (sel s.channels ch).cursor = .entries st f last)
    (h : smallest (walkAhead s.slots st f last) = none) :
    runNextEntry ch (arrive ch req s) = (arrive ch req s, .now .listEnd []) := by
  simp only [runNextEntry, cursor_arrive, hc, arrive_slots, h]

theorem runNextEntry_found (hc : (sel s.channels ch).cursor = .entries st f last)
    (h : smallest (walkAhead s.slots st f last) = some e) :
    runNextEntry ch (arrive ch req s) =
      (arrive ch req (s.setCursor ch (.entries st f (some e.key))),
        .now .done (keyBytes e.key ++ [e.conditionByte])) := by
  simp only [runNextEntry, cursor_arrive, hc, arrive_slots, setCursor_arrive, h, Reply.done]

end Arrived

theorem settle_setCursor (s : State) (ch : ChannelNo) (c : Cursor) : settle s (s.setCursor ch c) = s.setCursor ch c :=
  settle_channel s ch _

/-- A key matches where it has the filters' station and format (R21). -/
theorem passes_iff {st : Option StationNo} {f : Option FormatNo} :
    k.passes st f = true ↔ (∀ x, st = some x → k.station = x) ∧ (∀ y, f = some y → k.format = y) := by
  unfold Key.passes
  rw [Bool.and_eq_true]
  cases st <;> cases f <;> simp

/-- Key order is that of station, format and parameter (spec/00, Keys). -/
theorem rank_lt_iff {k l : Key} : k.rank < l.rank ↔ k.station < l.station ∨
    (k.station = l.station ∧ (k.format < l.format ∨ (k.format = l.format ∧ k.param < l.param))) := by
  have hkf := k.format.isLt
  have hlf := l.format.isLt
  have hkp := k.param.isLt
  have hlp := l.param.isLt
  simp only [Key.rank, Fin.lt_def, Fin.ext_iff]
  omega

/-- Settles O10: the walk's next entry is the smallest of those ahead. -/
theorem entryWalk : Obligations.EntryWalk := by
  refine ⟨fun ch a s => ⟨fun st f hp hst hf => ?_, fun hp => ⟨fun st f last hc => ?_, fun hc => ?_, fun last hc => ?_⟩⟩,
    fun k st f => passes_iff, fun k l => rank_lt_iff⟩
  · refine ⟨fun hnone => ?_, fun e he hpass hleast => ?_⟩
    · have hempty : walkAhead s.slots st f none = [] := by
        refine List.eq_nil_iff_forall_not_mem.2 fun x hx => ?_
        obtain ⟨hx, hpass, -⟩ := mem_walkAhead.1 hx
        obtain ⟨n, hn⟩ := mem_snd.1 hx
        rw [hnone _ hn] at hpass
        cases hpass
      exact exec_listEntries hp (runListEntries_end _ hst hf (smallest_eq_none.2 hempty)) (settle_setCursor s ch _)
    · have hsmall : smallest (walkAhead s.slots st f none) = some e := by
        refine smallest_eq (mem_walkAhead.2 ⟨he, hpass, fun l hl => nomatch hl⟩) fun x hx => ?_
        obtain ⟨hx, hpass, -⟩ := mem_walkAhead.1 hx
        obtain ⟨n, hn⟩ := mem_snd.1 hx
        exact hleast _ hn hpass
      exact exec_listEntries hp (runListEntries_found _ hst hf hsmall) (settle_setCursor s ch _)
  · refine ⟨fun hnone => ?_, fun e he hpass hafter hleast => ?_⟩
    · have hempty : walkAhead s.slots st f last = [] := by
        refine List.eq_nil_iff_forall_not_mem.2 fun x hx => ?_
        obtain ⟨hx, hpass, hafter⟩ := mem_walkAhead.1 hx
        obtain ⟨n, hn⟩ := mem_snd.1 hx
        obtain ⟨l, hl, hle⟩ := hnone _ hn hpass
        exact absurd (hafter l hl) (Nat.not_lt.2 hle)
      exact exec_nextEntry hp (runNextEntry_end _ hc (smallest_eq_none.2 hempty)) (settle_self s)
    · have hsmall : smallest (walkAhead s.slots st f last) = some e := by
        refine smallest_eq (mem_walkAhead.2 ⟨he, hpass, hafter⟩) fun x hx => ?_
        obtain ⟨hx, hpass, hafter⟩ := mem_walkAhead.1 hx
        obtain ⟨n, hn⟩ := mem_snd.1 hx
        exact hleast _ hn hpass hafter
      exact exec_nextEntry hp (runNextEntry_found _ hc hsmall) (settle_setCursor s ch _)
  · exact exec_nextEntry hp (by simp only [runNextEntry, cursor_arrive, hc]; rfl) (settle_self s)
  · exact exec_nextEntry hp (by simp only [runNextEntry, cursor_arrive, hc]; rfl) (settle_self s)

end Sys2Proof.Machine
end

section
/-! PROOFS. O27: the slots that slot results leave in the table, alone, in a pair and unrelated. -/

namespace Sys2Proof.Machine

/-! ### Partners among slot writes -/

/-- Two slot writes are of a pair where their keys differ in the parameter at most and each names the other (R7). -/
theorem mates_iff {p q : SlotPlan} : p.mates q = true ↔
    q.key = { p.key with param := q.key.param } ∧ p.partner = some q.key.param ∧ q.partner = some p.key.param := by
  simp only [SlotPlan.mates, Bool.and_eq_true, beq_iff_eq]
  constructor
  · rintro ⟨⟨⟨hst, hf⟩, hp⟩, hq⟩
    exact ⟨key_ext hst.symm hf.symm rfl, hp, hq⟩
  · rintro ⟨hk, hp, hq⟩
    exact ⟨⟨⟨by rw [hk], by rw [hk]⟩, hp⟩, hq⟩

theorem mates_comm (p q : SlotPlan) : p.mates q = q.mates p := by
  rw [Bool.eq_iff_iff]
  simp only [SlotPlan.mates, Bool.and_eq_true, beq_iff_eq]
  constructor <;> (rintro ⟨⟨⟨hst, hf⟩, hp⟩, hq⟩; exact ⟨⟨⟨hst.symm, hf.symm⟩, hq⟩, hp⟩)

theorem mates_self {p : SlotPlan} (h : p.partner ≠ some p.key.param) : p.mates p = false :=
  Bool.eq_false_iff.2 fun hm => h (mates_iff.1 hm).2.1

/-! ### One result and two -/

theorem resultLeaves_write {all : List SlotResult} {d : SlotResult} (hk : d.1.kind ≠ .retire) :
    resultLeaves all d = some (d.1.entry (if d.2 then d.1.body else none)) := by
  unfold resultLeaves
  split
  · next h => exact absurd h hk
  · rfl
  · rfl

theorem resultLeaves_retire {all : List SlotResult} {d : SlotResult} (hk : d.1.kind = .retire) :
    resultLeaves all d = if d.2 && !mateFailed all d.1 then none else some (d.1.entry none) := by
  simp only [resultLeaves, hk]

/-- What a result leaves rests on the other results by whether the partner's has failed alone. -/
theorem resultLeaves_congr {all all' : List SlotResult} {d : SlotResult}
    (h : mateFailed all d.1 = mateFailed all' d.1) : resultLeaves all d = resultLeaves all' d := by
  simp only [resultLeaves, h]

section Pair

variable {m : SlotMap Entry} {p q : SlotPlan}

theorem resultSlots_single (hp : p.slot < 2048) (x : Bool) : ResultSlots [(p, x)] :=
  ⟨by simp, fun d hd => by rw [List.mem_singleton.1 hd]; exact hp⟩

theorem resultSlots_pair (hp : p.slot < 2048) (hq : q.slot < 2048) (hne : p.slot ≠ q.slot) (x y : Bool) :
    ResultSlots [(p, x), (q, y)] :=
  ⟨by simpa using hne, by simpa using ⟨hp, hq⟩⟩

theorem slotGet_single (hm : workingWf m = true) (hp : p.slot < 2048) (x : Bool) :
    slotGet (applyResults [(p, x)] m) p.slot = resultLeaves [(p, x)] (p, x) :=
  slotGet_applyResults_of_mem hm (resultSlots_single hp x) (d := (p, x)) (by simp)

theorem slotGet_pair_first (hm : workingWf m = true) (hp : p.slot < 2048) (hq : q.slot < 2048)
    (hne : p.slot ≠ q.slot) (x y : Bool) :
    slotGet (applyResults [(p, x), (q, y)] m) p.slot = resultLeaves [(p, x), (q, y)] (p, x) :=
  slotGet_applyResults_of_mem hm (resultSlots_pair hp hq hne x y) (d := (p, x)) (by simp)

theorem slotGet_pair_second (hm : workingWf m = true) (hp : p.slot < 2048) (hq : q.slot < 2048)
    (hne : p.slot ≠ q.slot) (x y : Bool) :
    slotGet (applyResults [(p, x), (q, y)] m) q.slot = resultLeaves [(p, x), (q, y)] (q, y) :=
  slotGet_applyResults_of_mem hm (resultSlots_pair hp hq hne x y) (d := (q, y)) (by simp)

/-- A verified RETIRE without partner leaves nothing. -/
theorem retire_single (hk : p.kind = .retire) (hq : p.partner = none) (x : Bool) :
    resultLeaves [(p, x)] (p, x) = if x then none else some (p.entry none) := by
  rw [resultLeaves_retire hk]
  have hself : p.mates p = false := mates_self (by simp [hq])
  simp [mateFailed, hself]

/-- Two RETIREs of a pair leave nothing where both verified, and both entries DAMAGED otherwise (Table 8). -/
theorem retire_pair (hk : p.kind = .retire) (hk' : q.kind = .retire) (hmates : p.mates q = true) (x y : Bool) :
    resultLeaves [(p, x), (q, y)] (p, x) = (if x && y then none else some (p.entry none)) ∧
      resultLeaves [(p, x), (q, y)] (q, y) = if x && y then none else some (q.entry none) := by
  have hmates' : q.mates p = true := mates_comm p q ▸ hmates
  rw [resultLeaves_retire (d := (p, x)) hk, resultLeaves_retire (d := (q, y)) hk']
  cases x <;> cases y <;> simp [mateFailed, hmates, hmates']

/-- The freed slots after two RETIREs of a pair: that of the one that verified alone (R10). -/
theorem retire_pair_freed (hm : workingWf m = true) (hp : p.slot < 2048) (hq : q.slot < 2048) (hne : p.slot ≠ q.slot)
    (hk : p.kind = .retire) (hk' : q.kind = .retire) (hmates : p.mates q = true) (freed : List Nat) :
    p.slot ∈ freedAfter freed [(p, true), (q, false)] (applyResults [(p, true), (q, false)] m) ∧
      q.slot ∈ freedAfter freed [(p, false), (q, true)] (applyResults [(p, false), (q, true)] m) ∧
      p.slot ∉ freedAfter freed [(p, true), (q, true)] (applyResults [(p, true), (q, true)] m) := by
  have hlisted : ∀ {all : List SlotResult} {n : Nat} {e : Entry}, slotGet (applyResults all m) n = some e →
      n ∈ (applyResults all m).map Prod.fst := fun h => List.mem_map_of_mem (f := Prod.fst) (mem_of_slotGet h)
  refine ⟨mem_freedAfter.2 ⟨?_, .inr ⟨p, by simp, rfl, hk⟩⟩, mem_freedAfter.2 ⟨?_, .inr ⟨q, by simp, rfl, hk'⟩⟩,
    fun hfreed => ?_⟩
  · exact hlisted ((slotGet_pair_first hm hp hq hne _ _).trans (retire_pair hk hk' hmates true false).1)
  · exact hlisted ((slotGet_pair_second hm hp hq hne _ _).trans (retire_pair hk hk' hmates false true).2)
  · exact slotGet_eq_none.1 ((slotGet_pair_first hm hp hq hne _ _).trans (retire_pair hk hk' hmates true true).1)
      (mem_freedAfter.1 hfreed).1

/-- Of two unrelated changes each slot is as its own result leaves it (R84). -/
theorem unrelated_pair (hmates : p.mates q = false) (x y : Bool) :
    resultLeaves [(p, x), (q, y)] (p, x) = resultLeaves [(p, x)] (p, x) ∧
      resultLeaves [(p, x), (q, y)] (q, y) = resultLeaves [(q, y)] (q, y) := by
  have hmates' : q.mates p = false := mates_comm p q ▸ hmates
  exact ⟨resultLeaves_congr (by simp [mateFailed, hmates']), resultLeaves_congr (by simp [mateFailed, hmates])⟩

/-! ### The results that the table applies -/

theorem tableResults_single {freed : List Nat} (h : p.kind ≠ .set ∨ p.slot ∉ freed) (x : Bool) :
    tableResults freed [(p, x)] = [(p, x)] := by
  rcases h with h | h
  · simp [tableResults, h]
  · simp [tableResults, pairFreed, h]

theorem tableResults_no_set {freed : List Nat} (hp : p.kind ≠ .set) (hq : q.kind ≠ .set) (x y : Bool) :
    tableResults freed [(p, x), (q, y)] = [(p, x), (q, y)] := by
  simp [tableResults, hp, hq]

theorem tableResults_not_freed {freed : List Nat} (hp : p.slot ∉ freed) (hq : q.slot ∉ freed) (x y : Bool) :
    tableResults freed [(p, x), (q, y)] = [(p, x), (q, y)] := by
  simp [tableResults, pairFreed, hp, hq]

theorem tableResults_freed_pair {freed : List Nat} (hk : p.kind = .set) (hk' : q.kind = .set)
    (hmates : p.mates q = true) (h : p.slot ∈ freed ∨ q.slot ∈ freed) (x y : Bool) :
    tableResults freed [(p, x), (q, y)] = [(p, false), (q, false)] := by
  have hmates' : q.mates p = true := mates_comm p q ▸ hmates
  rcases h with h | h <;> simp [tableResults, pairFreed, hk, hk', hmates, hmates', h]

end Pair

/-- Settles O27: each slot reads what its own result leaves, by the rows of Tables 7 and 8. -/
theorem slotResultsApplied : Obligations.SlotResultsApplied := by
  intro m p hm hp
  refine ⟨fun hk => ?_, fun hk hq => ?_, fun ok n hn => ?_, fun q hq hne => ⟨fun hk hk' hkey hpq hqp => ?_,
    fun hk hk' x y => ?_, fun hun x y => ?_, fun x y n hn hn' => ?_⟩, fun freed q x y => ⟨?_, ?_, ?_, ?_⟩⟩
  · rw [slotGet_single hm hp, slotGet_single hm hp, resultLeaves_write hk, resultLeaves_write hk]
    exact ⟨rfl, rfl⟩
  · rw [slotGet_single hm hp, slotGet_single hm hp, retire_single hk hq, retire_single hk hq]
    exact ⟨rfl, rfl⟩
  · exact slotGet_applyResults_ne (by simpa using Ne.symm hn)
  · have hmates := mates_iff.2 ⟨hkey, hpq, hqp⟩
    refine ⟨?_, ?_, fun x y hxy => ?_, retire_pair_freed hm hp hq hne hk hk' hmates⟩
    · exact (slotGet_pair_first hm hp hq hne _ _).trans (retire_pair hk hk' hmates true true).1
    · exact (slotGet_pair_second hm hp hq hne _ _).trans (retire_pair hk hk' hmates true true).2
    · obtain ⟨hleft, hright⟩ := retire_pair hk hk' hmates x y
      rw [slotGet_pair_first hm hp hq hne, slotGet_pair_second hm hp hq hne, hleft, hright, hxy]
      exact ⟨rfl, rfl⟩
  · rw [slotGet_pair_first hm hp hq hne, slotGet_pair_second hm hp hq hne, resultLeaves_write hk,
      resultLeaves_write hk']
    exact ⟨rfl, rfl⟩
  · obtain ⟨hleft, hright⟩ := unrelated_pair (Bool.eq_false_iff.2 fun h => hun (mates_iff.1 h)) x y
    rw [slotGet_pair_first hm hp hq hne, slotGet_pair_second hm hp hq hne, slotGet_single hm hp, slotGet_single hm hq]
    exact ⟨hleft, hright⟩
  · exact slotGet_applyResults_ne (by simpa using ⟨Ne.symm hn, Ne.symm hn'⟩)
  · exact fun h _ => tableResults_single h x
  · exact fun hk hk' => tableResults_no_set hk hk' x y
  · exact fun h h' => tableResults_not_freed h h' x y
  · exact fun hk hk' hkey hpq hqp h => tableResults_freed_pair hk hk' (mates_iff.2 ⟨hkey, hpq, hqp⟩) h x y

end Sys2Proof.Machine
end

section
/-! PROOFS. O54: the scan's reading of the slots, and what the partner pass leaves, keeps and frees. -/

namespace Sys2Proof.Machine

/-! ### One slot read -/

section Reading

variable {r : SlotReading} {n : Nat} {c : NvSlot} {k : Key} {cls : EntryClass} {q : Option ParamNo}

theorem readSlot_free (h : c.header = .free) : readSlot r (n, c) = r := by
  simp only [readSlot, h]

theorem readSlot_failed (h : c.header = .failed) : readSlot r (n, c) = ⟨r.slots, r.faults + 1⟩ := by
  simp only [readSlot, h]

theorem readSlot_again {e : Entry} (h : c.header = .entry k cls q) (he : entryAt r.slots k = some e) :
    readSlot r (n, c) = ⟨r.slots, r.faults + 1⟩ := by
  simp [readSlot, h, he]

theorem readSlot_valid {b : Body} (h : c.header = .entry k cls q) (he : entryAt r.slots k = none)
    (hb : c.body = some b) (hok : b.ok = true) :
    readSlot r (n, c) = ⟨r.slots ++ [(n, ⟨k, cls, q, some b⟩)], r.faults⟩ := by
  have hvalid : c.validBody = some b := Option.filter_eq_some_iff.2 ⟨hb, hok⟩
  simp [readSlot, h, he, hvalid]

theorem readSlot_invalid (h : c.header = .entry k cls q) (he : entryAt r.slots k = none)
    (hb : c.body = none ∨ ∃ b, c.body = some b ∧ b.ok = false) :
    readSlot r (n, c) = ⟨r.slots ++ [(n, ⟨k, cls, q, none⟩)], r.faults + 1⟩ := by
  have hvalid : c.validBody = none := by
    rcases hb with hb | ⟨b, hb, hok⟩
    · simp [NvSlot.validBody, hb]
    · simp [NvSlot.validBody, hb, hok]
  simp [readSlot, h, he, hvalid]

end Reading

/-! ### What the partner pass makes of an entry -/

variable {m : SlotMap Entry} {n : Nat} {e d : Entry} {q : ParamNo}

theorem settled_eq_self (h : unequal m e = false) : settled m e = e := by
  simp [settled, h]

/-- An entry without a partner stays as it is. -/
theorem partnerPass_alone (he : (n, e) ∈ m) (hq : e.partner = none) : (n, e) ∈ partnerPass m := by
  have hstands : PartnerStands m e := fun q h => by rw [hq] at h; cases h
  have hequal : unequal (freeOrphans m) e = false := Bool.eq_false_iff.2 fun h => by
    obtain ⟨q, -, -, -, h, -⟩ := unequal_iff.1 h
    rw [hq] at h
    cases h
  exact mem_partnerPass.2 ⟨e, he, hstands, (settled_eq_self hequal).symm⟩

theorem partnerStands_of (hq : e.partner = some q) (hd : entryAt m { e.key with param := q } = some d)
    (hback : d.partner = some e.key.param) : PartnerStands m e := fun q' h => by
  obtain rfl := Option.some.inj (hq.symm.trans h)
  exact ⟨d, hd, hback⟩

/-- Step 2 damages an entry whose partner stands exactly where both are ACTIVE at unequal revisions. -/
theorem unequal_pair (hu : KeysUnique m) (he : (n, e) ∈ m) (hq : e.partner = some q)
    (hd : entryAt m { e.key with param := q } = some d) (hback : d.partner = some e.key.param) :
    unequal (freeOrphans m) e = true ↔
      ∃ b b', e.body = some b ∧ d.body = some b' ∧ b.revision ≠ b'.revision := by
  have hd' := (entryAt_freeOrphans hu).2 ⟨hd, partnerStands_mate hu (mem_snd.2 ⟨n, he⟩) hq hd hback⟩
  rw [unequal_iff]
  constructor
  · rintro ⟨q', d', b, b', hq', hd'', hrest⟩
    obtain rfl := Option.some.inj (hq.symm.trans hq')
    obtain rfl := Option.some.inj (hd'.symm.trans hd'')
    exact ⟨b, b', hrest⟩
  · rintro ⟨b, b', hrest⟩
    exact ⟨q, d, b, b', hq, hd', hrest⟩

/-- An entry whose partner stands stays as it is, but for two that are ACTIVE at unequal revisions. -/
theorem partnerPass_equal (hu : KeysUnique m) (he : (n, e) ∈ m) (hq : e.partner = some q)
    (hd : entryAt m { e.key with param := q } = some d) (hback : d.partner = some e.key.param)
    (h : ∀ b b', e.body = some b → d.body = some b' → b.revision = b'.revision) : (n, e) ∈ partnerPass m := by
  refine mem_partnerPass.2 ⟨e, he, partnerStands_of hq hd hback, (settled_eq_self ?_).symm⟩
  refine Bool.eq_false_iff.2 fun hne => ?_
  obtain ⟨b, b', hb, hb', hrev⟩ := (unequal_pair hu he hq hd hback).1 hne
  exact hrev (h b b' hb hb')

theorem partnerPass_unequal (hu : KeysUnique m) (he : (n, e) ∈ m) (hq : e.partner = some q)
    (hd : entryAt m { e.key with param := q } = some d) (hback : d.partner = some e.key.param) {b b' : Body}
    (hb : e.body = some b) (hb' : d.body = some b') (h : b.revision ≠ b'.revision) :
    (n, { e with body := none }) ∈ partnerPass m := by
  have hne := (unequal_pair hu he hq hd hback).2 ⟨b, b', hb, hb', h⟩
  exact mem_partnerPass.2 ⟨e, he, partnerStands_of hq hd hback, by simp [settled, hne]⟩

/-- An entry whose partner is absent, or does not name it in return, is freed. -/
theorem partnerPass_orphan (hu : KeysUnique m) (he : (n, e) ∈ m) (hq : e.partner = some q)
    (h : ∀ d, entryAt m { e.key with param := q } = some d → d.partner ≠ some e.key.param) :
    ∀ x ∈ partnerPass m, x.2.key ≠ e.key := by
  intro x hx hk
  obtain ⟨e', he', hstands, hxe⟩ := mem_partnerPass.1 hx
  have hkey : e'.key = e.key := by rw [← hk, hxe, settled_key]
  obtain rfl : e' = e := congrArg Prod.snd (hu.slot_eq he' he hkey)
  obtain ⟨d, hd, hback⟩ := hstands q hq
  exact h d hd hback

/-- What the pass leaves is an entry of the table, as it was or DAMAGED. -/
theorem partnerPass_origin (he : e ∈ (partnerPass m).map Prod.snd) :
    ∃ e' ∈ m.map Prod.snd, e'.key = e.key ∧ e'.cls = e.cls ∧ e'.partner = e.partner ∧
      (e.body = e'.body ∨ e.body = none) := by
  obtain ⟨n, he⟩ := mem_snd.1 he
  obtain ⟨e', he', -, rfl⟩ := mem_partnerPass.1 he
  refine ⟨e', mem_snd.2 ⟨n, he'⟩, by simp, by simp, by simp, ?_⟩
  unfold settled
  split
  · exact .inr rfl
  · exact .inl rfl

/-- Settles O54: the reading of one slot by its header and body, and the two steps of the partner pass. -/
theorem scanSettlesSlots : Obligations.ScanSettlesSlots := by
  refine ⟨fun r n c => ⟨readSlot_free, readSlot_failed, fun k cls q h => ⟨fun e he => readSlot_again h he, fun he =>
      ⟨fun b hb hok => readSlot_valid h he hb hok, fun hb => readSlot_invalid h he hb⟩⟩⟩,
    fun m hu e he => ⟨partnerPass_origin he, partnersLaw_partnerPass hu e he⟩,
    fun m hu n e he => ⟨partnerPass_alone he, fun q hq => ⟨fun d hd hback => ⟨partnerPass_equal hu he hq hd hback,
      fun b b' hb hb' h => partnerPass_unequal hu he hq hd hback hb hb' h⟩, partnerPass_orphan hu he hq⟩⟩,
    fun a => rfl, fun b => ?_⟩
  have hrev : b.revision ≠ 0 ↔ 1 ≤ b.revision.toNat := by
    rw [Nat.one_le_iff_ne_zero, ne_eq, ne_eq, ← BitVec.toNat_inj]
    rfl
  rw [body_ok_iff, Body.InOrder, hrev]

end Sys2Proof.Machine
end

section
/-! The bodies that a proposal's slot writes carry (R6, R79). -/

namespace Sys2Proof.Machine

/-! ### Revisions -/

theorem nextRevision_toNat {r : Half} (h : r.toNat < 65535) : (nextRevision r).toNat = r.toNat + 1 := by
  have hr : r ≠ 0xFFFF := fun h' => by simp [h'] at h
  rw [nextRevision, if_neg hr]
  bv_omega

/-- A revision never becomes 0: the last one is followed by 1. -/
theorem nextRevision_last {r : Half} (h : r.toNat = 65535) : nextRevision r = 1 :=
  if_pos (BitVec.eq_of_toNat_eq h)

theorem nextRevision_zero : nextRevision 0 = 1 := by decide

theorem maxRevision_toNat (a b : Half) : (maxRevision a b).toNat = max a.toNat b.toNat := by
  unfold maxRevision
  split <;> omega

theorem revisionAt_of_findEntry {m : SlotMap Entry} {k : Key} {n : Nat} {e : Entry} (h : findEntry m k = some (n, e)) :
    revisionAt m k = (e.body.map Body.revision).getD 0 := by
  simp [revisionAt, entryAt_of_findEntry h, Entry.statedRevision]

/-- A change whose entry has no partner gives the revision that follows the entry's own. -/
theorem setRevision_of_unpartnered {m : SlotMap Entry} {c : Change} (all : List Change) (h : partnerOf m c = none) :
    setRevision m all c = nextRevision (revisionAt m c.key) := by
  simp [setRevision, pairMate, h]

/-- R6: a change with its partner's among the changes gives the revision that follows the larger of the two. -/
theorem setRevision_of_mate {m : SlotMap Entry} {all : List Change} {c d : Change} (h : pairMate m all c = some d) :
    setRevision m all c = nextRevision (maxRevision (revisionAt m c.key) (revisionAt m d.key)) := by
  simp [setRevision, h]

theorem partnerOf_of_set {m : SlotMap Entry} {c : Change} (h : c.kind = .set) :
    partnerOf m c = (entryAt m c.key).bind Entry.partner := by
  cases c with
  | set => rfl
  | create => cases h
  | retire => cases h

/-- Two SETs of a partner pair are each other's mates. -/
theorem pairMate_setPair {m : SlotMap Entry} {c d : Change} {q : ParamNo} (hc : c.kind = .set) (hd : d.kind = .set)
    (hk : d.key = { c.key with param := q }) (hne : c.key ≠ d.key)
    (hq : (entryAt m c.key).bind Entry.partner = some q)
    (hq' : (entryAt m d.key).bind Entry.partner = some c.key.param) :
    pairMate m [c, d] c = some d ∧ pairMate m [c, d] d = some c := by
  have hn : (keysOf [c, d]).Nodup := by simp [keysOf, hne]
  constructor
  · exact pairMate_of_mem hn ((partnerOf_of_set hc).trans hq) (by simp) hk (hd.trans hc.symm)
  · exact pairMate_of_mem hn ((partnerOf_of_set hd).trans hq') (by simp) (by rw [hk]) (hc.trans hd.symm)

/-- R6: the one revision of a paired SET. -/
theorem setRevision_setPair {m : SlotMap Entry} {c d : Change} {q : ParamNo} (hc : c.kind = .set) (hd : d.kind = .set)
    (hk : d.key = { c.key with param := q }) (hne : c.key ≠ d.key)
    (hq : (entryAt m c.key).bind Entry.partner = some q)
    (hq' : (entryAt m d.key).bind Entry.partner = some c.key.param) :
    setRevision m [c, d] c = setRevision m [c, d] d ∧
      (max (revisionAt m c.key).toNat (revisionAt m d.key).toNat < 65535 →
        (setRevision m [c, d] c).toNat = max (revisionAt m c.key).toNat (revisionAt m d.key).toNat + 1) ∧
      (max (revisionAt m c.key).toNat (revisionAt m d.key).toNat = 65535 → setRevision m [c, d] c = 1) := by
  obtain ⟨hcd, hdc⟩ := pairMate_setPair hc hd hk hne hq hq'
  refine ⟨setRevision_pair hcd hdc, ?_⟩
  rw [setRevision_of_mate hcd, ← maxRevision_toNat]
  exact ⟨nextRevision_toNat, nextRevision_last⟩

/-! ### Slots and plans -/

/-- R79: the slot taken is the lowest one that is not taken already. -/
theorem lowestFree_of_lowest {taken : List Nat} {fuel lo n : Nat} (hlo : lo ≤ n) (hn : n < lo + fuel) (hf : n ∉ taken)
    (hbelow : ∀ j, lo ≤ j → j < n → j ∈ taken) : lowestFree taken fuel lo = some n := by
  induction fuel generalizing lo with
  | zero => omega
  | succ fuel ih =>
    rcases Nat.eq_or_lt_of_le hlo with rfl | hlt
    · simp [lowestFree, hf]
    · simp [lowestFree, hbelow lo le_rfl hlt, ih hlt (by omega) fun j hj => hbelow j (by omega)]

/-- The plan of a SET comes first, before those of the changes that follow. -/
theorem planSlots_set {m : SlotMap Entry} {k : Key} {n : Nat} {e : Entry} (all : List Change) (taken : List Nat)
    (x : Half) (v : Word) (low high : BoundField) (t : Option Half) (rest : List Change)
    (h : findEntry m k = some (n, e)) :
    planSlots m all taken (.set k x v low high t :: rest) = (planSlots m all taken rest).map
      (⟨.set, n, k, e.cls, e.partner,
        some ⟨v, low.after (e.body.bind Body.low), high.after (e.body.bind Body.high),
          t.getD ((e.body.map Body.tolerance).getD 0), setRevision m all (.set k x v low high t)⟩⟩ :: ·) := by
  simp [planSlots, h]

/-- A CREATE takes a slot, which is taken for the changes that follow. -/
theorem planSlots_create {n : Nat} (m : SlotMap Entry) (all : List Change) {taken : List Nat} (k : Key) (v : Word)
    (low high : BoundField) (t : Option Half) (cls : EntryClass) (q : Option ParamNo) (rest : List Change)
    (h : lowestFree taken 2048 0 = some n) :
    planSlots m all taken (.create k v low high t cls q :: rest) = (planSlots m all (n :: taken) rest).map
      (⟨.create, n, k, cls, q, some ⟨v, low.after none, high.after none, t.getD 0, 1⟩⟩ :: ·) := by
  have h : lowestFree taken Config.slotCount 0 = some n := h
  simp [planSlots, h]

theorem planSlots_retire {m : SlotMap Entry} {k : Key} {n : Nat} {e : Entry} (all : List Change) (taken : List Nat)
    (x : Half) (rest : List Change) (h : findEntry m k = some (n, e)) :
    planSlots m all taken (.retire k x :: rest) = (planSlots m all taken rest).map
      (⟨.retire, n, k, e.cls, e.partner, none⟩ :: ·) := by
  simp [planSlots, h]

@[simp] theorem planSlots_nil (m : SlotMap Entry) (all : List Change) (taken : List Nat) :
    planSlots m all taken [] = some [] := by
  simp [planSlots]

/-- The revision of a SET of an entry without partner. -/
theorem setRevision_single {m : SlotMap Entry} {k : Key} {n : Nat} {e : Entry} (all : List Change) (x : Half) (v : Word)
    (low high : BoundField) (t : Option Half) (h : findEntry m k = some (n, e)) (hp : e.partner = none) :
    setRevision m all (.set k x v low high t) = nextRevision ((e.body.map Body.revision).getD 0) := by
  rw [setRevision_of_unpartnered all (by simp [partnerOf, entryAt_of_findEntry h, hp])]
  exact congrArg nextRevision (revisionAt_of_findEntry h)

/-! ### The obligation -/

/-- Settles O28: each kind of change gives its plan, with the revision of a SET from `setRevision_single` or, for a
pair, from `setRevision_setPair`, and the slots of CREATEs the lowest free ones. -/
theorem plannedBodies : Obligations.PlannedBodies := by
  unfold Obligations.PlannedBodies
  refine ⟨?_, ?_, ?_, ?_, ?_, ?_, ?_⟩
  · intro m k x v low high t n e b hf hp hb
    refine ⟨nextRevision b.revision, ?_, nextRevision_toNat, nextRevision_last⟩
    rw [planSlots_set _ _ _ _ _ _ _ _ hf, setRevision_single _ _ _ _ _ _ hf hp]
    simp [hp, hb]
  · intro m k x v low high t n e hf hp hb
    rw [planSlots_set _ _ _ _ _ _ _ _ hf, setRevision_single _ _ _ _ _ _ hf hp]
    simpa [hp, hb] using nextRevision_zero
  · rintro m c d q r r' hc hd hk hne hq hq' rfl rfl
    exact setRevision_setPair hc hd hk hne hq hq'
  · intro m k v low high t cls q n hlt hfree hbelow
    rw [planSlots_create _ _ _ _ _ _ _ _ _ _
      (lowestFree_of_lowest (Nat.zero_le n) (by omega) hfree fun j _ => hbelow j)]
    simp
  · rintro m k k' v v' low high low' high' t t' cls cls' q q' n n' l rfl hnn hlt hfree hfree' hbelow
    have hfirst : lowestFree (m.map Prod.fst) 2048 0 = some n :=
      lowestFree_of_lowest (Nat.zero_le n) (by omega) hfree fun j _ hj => hbelow j (by omega) (by omega)
    have hsecond : lowestFree (n :: m.map Prod.fst) 2048 0 = some n' := by
      refine lowestFree_of_lowest (Nat.zero_le n') (by omega) ?_ fun j _ hj => ?_
      · exact fun h => (List.mem_cons.1 h).elim (by omega) hfree'
      · by_cases hjn : j = n
        · exact List.mem_cons.2 (.inl hjn)
        · exact List.mem_cons_of_mem _ (hbelow j hj hjn)
    rw [planSlots_create _ _ _ _ _ _ _ _ _ _ hfirst, planSlots_create _ _ _ _ _ _ _ _ _ _ hsecond]
    simp
  · intro m k x n e hf
    rw [planSlots_retire _ _ _ _ hf]
    simp
  · rintro m k k' x x' v v' low high low' high' t t' n n' e e' before l rfl hf hf' hne hk hq hq' rfl
    obtain ⟨hsame, hrev⟩ := setRevision_setPair (m := m) (c := .set k x v low high t)
      (d := .set k' x' v' low' high' t') rfl rfl hk hne (by simp [Change.key, entryAt_of_findEntry hf, hq])
      (by simp [Change.key, entryAt_of_findEntry hf', hq'])
    rw [show (Change.set k x v low high t).key = k from rfl, show (Change.set k' x' v' low' high' t').key = k' from rfl,
      revisionAt_of_findEntry hf, revisionAt_of_findEntry hf'] at hrev
    refine ⟨_, ?_, hrev⟩
    rw [planSlots_set _ _ _ _ _ _ _ _ hf, planSlots_set _ _ _ _ _ _ _ _ hf', ← hsame]
    simp

end Sys2Proof.Machine
end

section
/-! The completion of a proposal item, given whole (R82). -/

namespace Sys2Proof.Machine

/-! ### The re-judgement of one station (R110, R111) -/

/-- A completed change of the target's parameter hands format `f` to station `st` (R83, R110). -/
def handedTo (m : SlotMap Entry) (keys : List Key) (st : StationNo) (f : FormatNo) (x : StationNo × ParamNo) : Bool :=
  decide (x.1 = st) && keys.any fun k => decide (k.station = st ∧ k.param = x.2 ∧
    (k.format = f ∨ (k.format = 0 ∧ entryAt m ⟨st, f, x.2⟩ = none)))

/-- `handedTo` for the keys of an item's results. -/
theorem handedTo_results (m : SlotMap Entry) (all : List SlotResult) (st : StationNo) (f : FormatNo) :
    handedTo m (all.map fun d => d.1.key) st f = fun x =>
      decide (x.1 = st) && all.any fun d => decide (d.1.key.station = st ∧ d.1.key.param = x.2 ∧
        (d.1.key.format = f ∨ (d.1.key.format = 0 ∧ entryAt m ⟨st, f, x.2⟩ = none))) := by
  funext x
  rw [handedTo, List.any_map]
  rfl

/-- The record of station `st` re-judged for those of the targets that are handed to it. -/
def rejudgedRec (before after : SlotMap Entry) (keys : List Key) (st : StationNo) (l : List (StationNo × ParamNo))
    (r : StationRec) : StationRec :=
  if r.persist.enrolled = true ∧ r.holder = none then
    (l.filter (handedTo before keys st r.persist.format)).foldl
      (fun r' x => rejudgeRec x.2 (resolutionOf (resolve before ⟨st, r.persist.format, x.2⟩))
        (resolve after ⟨st, r.persist.format, x.2⟩) r') r
  else r

/-- A station is re-judged for a target of its own that a change hands it. -/
theorem judged_iff {m : SlotMap Entry} {keys : List Key} {t : StationNo × ParamNo} {r : StationRec} :
    r.judged m keys t = true ↔
      (r.persist.enrolled = true ∧ r.holder = none) ∧ handedTo m keys t.1 r.persist.format t = true := by
  simp only [StationRec.judged, handedTo, Key.hands, Bool.and_eq_true, Bool.or_eq_true, List.any_eq_true, beq_iff_eq,
    decide_eq_true_eq, Option.isNone_iff_eq_none, true_and]
  refine and_congr_right fun _ => exists_congr fun k => and_congr_right fun _ => ?_
  constructor
  · rintro ⟨⟨hst, hp⟩, hf⟩
    exact ⟨hst, hp, by rwa [hst, hp] at hf⟩
  · rintro ⟨hst, hp, hf⟩
    exact ⟨⟨hst, hp⟩, by rwa [hst, hp]⟩

theorem rejudgeRec_persist (p : ParamNo) (before : Resolution) (now : Option Entry) (r : StationRec) :
    (rejudgeRec p before now r).persist = r.persist := by
  rw [rejudgeRec_frame]

theorem rejudgeRec_holder (p : ParamNo) (before : Resolution) (now : Option Entry) (r : StationRec) :
    (rejudgeRec p before now r).holder = r.holder := by
  rw [rejudgeRec_frame]

/-- A target that is not handed to the station leaves its record. -/
theorem rejudgedRec_cons_skip {before after : SlotMap Entry} {keys : List Key} {st : StationNo}
    {t : StationNo × ParamNo} {r : StationRec} (l : List (StationNo × ParamNo))
    (h : ¬ ((r.persist.enrolled = true ∧ r.holder = none) ∧ handedTo before keys st r.persist.format t = true)) :
    rejudgedRec before after keys st (t :: l) r = rejudgedRec before after keys st l r := by
  unfold rejudgedRec
  split
  · next hr => rw [List.filter_cons_of_neg fun ht => h ⟨hr, ht⟩]
  · rfl

/-- A target that is handed to the station re-judges its record, and the later targets go on from there. -/
theorem rejudgedRec_cons_take {before after : SlotMap Entry} {keys : List Key} {st : StationNo}
    {t : StationNo × ParamNo} {r : StationRec} (l : List (StationNo × ParamNo))
    (hr : r.persist.enrolled = true ∧ r.holder = none) (ht : handedTo before keys st r.persist.format t = true) :
    rejudgedRec before after keys st (t :: l) r = rejudgedRec before after keys st l
      (rejudgeRec t.2 (resolutionOf (resolve before ⟨st, r.persist.format, t.2⟩))
        (resolve after ⟨st, r.persist.format, t.2⟩) r) := by
  unfold rejudgedRec
  rw [rejudgeRec_persist, rejudgeRec_holder, if_pos hr, if_pos hr, List.filter_cons_of_pos ht, List.foldl_cons]

theorem rejudgeOne_slots (before : SlotMap Entry) (keys : List Key) (s : State) (t : StationNo × ParamNo) :
    (rejudgeOne before keys s t).slots = s.slots := by
  rw [rejudgeOne_frame]

/-- One step of the re-judgement, seen from one station. -/
theorem rejudgedRec_rejudgeOne (before : SlotMap Entry) (keys : List Key) (st : StationNo) (s : State)
    (t : StationNo × ParamNo) (l : List (StationNo × ParamNo)) :
    rejudgedRec before s.slots keys st l (sel (rejudgeOne before keys s t).stations st) =
      rejudgedRec before s.slots keys st (t :: l) (sel s.stations st) := by
  unfold rejudgeOne
  dsimp only
  split
  · next hj =>
    obtain ⟨hr, ht⟩ := judged_iff.1 hj
    by_cases hst : st = t.1
    · subst hst
      rw [rejudgedRec_cons_take l hr ht]
      simp [State.setStation]
    · rw [rejudgedRec_cons_skip l fun h => hst (of_decide_eq_true (Bool.and_eq_true_iff.1 h.2).1).symm]
      simp [State.setStation, sel_upd_ne _ _ hst]
  · next hj =>
    refine (rejudgedRec_cons_skip l fun h => hj ?_).symm
    obtain rfl : t.1 = st := of_decide_eq_true (Bool.and_eq_true_iff.1 h.2).1
    exact judged_iff.2 h

/-- R110: each station's record after the re-judgement. -/
theorem sel_rejudge_stations (before : SlotMap Entry) (keys : List Key) (s : State) (st : StationNo) :
    sel (rejudge before keys s).stations st =
      rejudgedRec before s.slots keys st (targetsOf keys) (sel s.stations st) := by
  unfold rejudge
  generalize targetsOf keys = l
  induction l generalizing s with
  | nil => simp [rejudgedRec]
  | cons t l ih => rw [List.foldl_cons, ih, rejudgeOne_slots, rejudgedRec_rejudgeOne]

/-! ### The answer and the flags -/

theorem anyFailed_false {all : List SlotResult} (h : ∀ d ∈ all, d.2 = true) : anyFailed all = false := by
  simpa [anyFailed] using h

theorem anyFailed_true {all : List SlotResult} (h : ∃ d ∈ all, d.2 = false) : anyFailed all = true := by
  simpa [anyFailed] using h

/-- The completion's causes of STORE: the first fault. -/
theorem causes_store (s u : State) : (causes s u).store = (!s.degraded && u.degraded) := rfl

/-- The removal of an open proposal is a cause of PROPOSALS. -/
theorem causes_proposals_of_filter {s u : State} {number : Nat}
    (hu : u.proposals = s.proposals.filter fun q => q.number != number) (hq : ∃ q ∈ s.proposals, q.number = number) :
    (causes s u).proposals = true := by
  obtain ⟨q, hq, hn⟩ := hq
  have hlt : u.proposals.length < s.proposals.length :=
    hu ▸ List.length_filter_lt_length_iff_exists.2 ⟨q, hq, by simp [hn]⟩
  refine decide_eq_true fun h => ?_
  have := congrArg List.length h
  simp at this
  omega

/-- The flags of a channel whose reset is not held, after an event that leaves the channels to the settling. -/
theorem settle_flags {s u : State} {c : ChannelNo} (h : (sel u.channels c).resetHeld = false) :
    (sel (settle s u).channels c).flags = (sel u.channels c).flags.join (causes s (formOutputs s u)) := by
  simp [flag_open _ h]

/-- A channel that still wants its answer is handed it (R175). -/
theorem deliver_wanted {s : State} {ch : ChannelNo} {req : Request} (code : AnswerCode) (result : List Byte)
    (h : (sel s.channels ch).handshake = .working true req) :
    deliver ch code result s = s.onChannel ch fun c => { c with handshake := .answered, answer := .of code result } := by
  simp [deliver, State.onChannel, Channel.complete, h]

/-- The answer to an abandoned request is discarded (R177). -/
theorem deliver_abandoned {s : State} {ch : ChannelNo} {req : Request} (code : AnswerCode) (result : List Byte)
    (h : (sel s.channels ch).handshake = .working false req) :
    deliver ch code result s = s.onChannel ch fun c => { c with handshake := .idle, armed := false, answer := .zero } := by
  simp [deliver, State.onChannel, Channel.complete, h]

/-! ### The completed item -/

/-- Effects 1 to 4 of R82: the state an item's completion leaves to the settling, where `judged` are the stations'
records after the re-judgement. -/
def completedState (number : Nat) (all : List SlotResult) (arr : NvArray) (judged : Bank 32 StationRec) (s : State) :
    State :=
  { s with
    array := arr
    slots := applyResults (tableResults s.freed all) s.slots
    freed := freedAfter s.freed all (applyResults (tableResults s.freed all) s.slots)
    degraded := s.degraded || anyFailed all
    digests := correctDigests s.slots (applyResults (tableResults s.freed all) s.slots)
      (targetsOf (all.map fun d => d.1.key)) s.digests
    stations := judged
    proposals := s.proposals.filter fun q => q.number != number
    writer := none }

/-- The stations' records after a completion. -/
theorem sel_applyCompletion_stations (all : List SlotResult) (s : State) (st : StationNo) :
    sel (applyCompletion all s).stations st =
      rejudgedRec s.slots (applyResults (tableResults s.freed all) s.slots) (all.map fun d => d.1.key) st
        (targetsOf (all.map fun d => d.1.key)) (sel s.stations st) := by
  unfold applyCompletion
  dsimp only
  rw [sel_rejudge_stations]

theorem removeProposal_applyCompletion {number : Nat} {all : List SlotResult} {arr : NvArray}
    {judged : Bank 32 StationRec} {s : State}
    (h : (applyCompletion all { s with array := arr }).stations = judged) :
    { removeProposal number (applyCompletion all { s with array := arr }) with writer := none } =
      completedState number all arr judged s := by
  rw [applyCompletion_eq, h]
  rfl

/-- Nothing that an event's end looks at rests on the array. -/
theorem settle_of_array (s u : State) (arr : NvArray) : settle { s with array := arr } u = settle s u := rfl

/-- PROPOSAL_ITEM_COMPLETION while the last slot of an item is written (R81). -/
theorem exec_proposalItemCompletion {s : State} {ch : ChannelNo} {number : Nat} {plans : List SlotPlan}
    {results : List Bool} {p : SlotPlan} (o : SlotOutcome) (hw : s.writer = some (.proposal ch number plans results))
    (hlen : results.length + 1 = plans.length) (hp : plans[results.length]? = some p) :
    exec (.proposalItemCompletion o) s = .next (endItem ch number plans results p o s) := by
  simp only [exec, execProposalItemCompletion, hw, if_pos hlen, hp]

/-- R82: an item's completion as a whole. -/
theorem endItem_eq {ch : ChannelNo} {number : Nat} {plans : List SlotPlan} {results : List Bool} {p : SlotPlan}
    {o : SlotOutcome} {s : State} {all : List SlotResult} {arr : NvArray} {judged : Bank 32 StationRec}
    (hall : all = plans.zip (results ++ [(writeSlotPlan p o s.array).2])) (harr : arr = (writeSlotPlan p o s.array).1)
    (hj : ∀ st, sel judged st = rejudgedRec s.slots (applyResults (tableResults s.freed all) s.slots)
      (all.map fun d => d.1.key) st (targetsOf (all.map fun d => d.1.key)) (sel s.stations st)) :
    endItem ch number plans results p o s = takeItem (deliver ch (completionCode all) (completionResult number all)
      (settle s (completedState number all arr judged s))) := by
  have hst : (applyCompletion all { s with array := arr }).stations = judged :=
    bank_ext fun st => (sel_applyCompletion_stations all _ st).trans (hj st).symm
  unfold endItem completeItem
  rw [← hall, ← harr, removeProposal_applyCompletion hst, settle_of_array]

/-- The store's flag and the proposals' flag after an item's completion (R183). -/
theorem settle_completedState_flags {number : Nat} (all : List SlotResult) (arr : NvArray)
    (judged : Bank 32 StationRec) {s : State} {c : ChannelNo} (h : (sel s.channels c).resetHeld = false) :
    (sel (settle s (completedState number all arr judged s)).channels c).flags.store =
        ((sel s.channels c).flags.store || (!s.degraded && anyFailed all)) ∧
      ((∃ q ∈ s.proposals, q.number = number) →
        (sel (settle s (completedState number all arr judged s)).channels c).flags.proposals = true) := by
  rw [settle_flags (u := completedState number all arr judged s) h]
  constructor
  · simp only [EventSet.join, causes_store, formOutputs_degraded, completedState]
    cases s.degraded <;> rfl
  · intro hq
    have hcause := causes_proposals_of_filter (u := formOutputs s (completedState number all arr judged s)) rfl hq
    simp [EventSet.join, hcause]

/-- Settles O26: the item's completion is `endItem_eq`, its flags are `settle_completedState_flags`, and its answer is
handed to the channel by `deliver_wanted` and `deliver_abandoned`. -/
theorem itemCompletion : Obligations.ItemCompletion := by
  unfold Obligations.ItemCompletion
  refine ⟨?_, ?_, ?_⟩
  · rintro s u o ch number plans results p arr all m judged code result hw hlen hp harr hall rfl hj hanswer hu
    have hu : u = completedState number all arr judged s := by
      rw [hu, completedState, freedAfter, anyFailed, targetsOf, List.map_map]
      rfl
    have hjudged : ∀ st, sel judged st = rejudgedRec s.slots (applyResults (tableResults s.freed all) s.slots)
        (all.map fun d => d.1.key) st (targetsOf (all.map fun d => d.1.key)) (sel s.stations st) := by
      intro st
      rw [hj st _ rfl]
      rw [rejudgedRec, handedTo_results, targetsOf, List.map_map]
      rfl
    have hcode : code = completionCode all ∧ result = completionResult number all := by
      rcases hanswer with ⟨hok, rfl, rfl⟩ | ⟨hfail, rfl, rfl⟩
      · simp [completionCode, completionResult, anyFailed_false hok]
      · simp [completionCode, completionResult, anyFailed_true hfail]
    obtain ⟨rfl, rfl⟩ := hcode
    subst hu
    exact ⟨(exec_proposalItemCompletion o hw hlen hp).trans (congrArg _ (endItem_eq hall harr hjudged)),
      fun c hc => settle_completedState_flags all arr judged hc⟩
  · intro s ch code result req
    exact ⟨deliver_wanted code result, deliver_abandoned code result⟩
  · intro all i
    refine ⟨fun h => ?_, fun p h => ?_, fun p h => ?_⟩ <;> simp [slotResultByte, newRevision, h]

end Sys2Proof.Machine
end

section
/-! The checks of submission (Table 19), and which of them gives the answer (R44 to R49). -/

namespace Sys2Proof.Machine

variable {s : State} {role : Role} {l : List Change}

/-! ### One check, change by change -/

/-- A check passes where it passes on every change. -/
theorem checkEach_eq_none_iff {f : Nat → Change → Option Reply} {k : Nat} :
    checkEach f k l = none ↔ ∀ i c, l[i]? = some c → f (k + i) c = none := by
  induction l generalizing k with
  | nil => simp [checkEach]
  | cons c l ih =>
    rw [checkEach, Option.or_eq_none_iff, ih]
    constructor
    · rintro ⟨hc, hl⟩ (_ | i) d hd
      · obtain rfl : c = d := by simpa using hd
        exact hc
      · rw [← Nat.add_assoc, Nat.add_right_comm]
        exact hl i d (by simpa using hd)
    · refine fun h => ⟨h 0 c (by simp), fun i d hd => ?_⟩
      rw [Nat.add_right_comm, Nat.add_assoc]
      exact h (i + 1) d (by simpa using hd)

/-- The lowest change that fails a check gives the check's answer. -/
theorem checkEach_eq_some {f : Nat → Change → Option Reply} {k i : Nat} {c : Change} {r : Reply}
    (hc : l[i]? = some c) (hr : f (k + i) c = some r)
    (hlow : ∀ j d, j < i → l[j]? = some d → f (k + j) d = none) : checkEach f k l = some r := by
  induction l generalizing k i with
  | nil => simp at hc
  | cons d l ih =>
    rw [checkEach]
    cases i with
    | zero =>
      obtain rfl : d = c := by simpa using hc
      rw [show f k d = some r from hr, Option.some_or]
    | succ i =>
      rw [show f k d = none from hlow 0 d (Nat.succ_pos i) (by simp), Option.none_or]
      refine ih (by simpa using hc) (by rwa [Nat.add_right_comm, Nat.add_assoc]) fun j e hj he => ?_
      rw [Nat.add_right_comm, Nat.add_assoc]
      exact hlow (j + 1) e (by omega) (by simpa using he)

/-! ### What each check passes -/

theorem plainTrim_iff {m : SlotMap Entry} {c : Change} :
    plainTrim m c = true ↔ c.valueOnly = true ∧ classAt m c = some .tunable := by
  simp [plainTrim]

theorem releaseBars_iff {c : Change} :
    s.releaseBars c = true ↔ classAt s.slots c = some .fixed ∧ s.release = none := by
  simp [State.releaseBars]

theorem damagedAt_iff {m : SlotMap Entry} {k : Key} :
    damagedAt m k = true ↔ ∃ e, entryAt m k = some e ∧ e.body = none := by
  cases h : entryAt m k with
  | none => simp [damagedAt, h, resolutionOf]
  | some e => cases hb : e.body <;> simp [damagedAt, h, resolutionOf, hb]

theorem checkRole_eq_none_iff {i : Nat} {c : Change} :
    checkRole s role i c = none ↔ (role = .operator → plainTrim s.slots c = true) ∧ s.releaseBars c = false := by
  unfold checkRole
  split
  · next h => simp_all
  · next h => split <;> simp_all

theorem checkExists_eq_none_iff {i : Nat} {c : Change} :
    checkExists s i c = none ↔ (c.kind = .create ↔ entryAt s.slots c.key = none) := by
  unfold checkExists
  split <;> simp_all

theorem checkRevision_eq_none_iff {i : Nat} {c : Change} :
    checkRevision s i c = none ↔ ∀ e, c.expected = some e → e = revisionAt s.slots c.key := by
  unfold checkRevision
  split <;> simp_all

/-- The change of the partner, in a draft, is one that suits the change `c` (R47). -/
def suitsPartner (c d : Change) : Prop := d.kind = c.kind ∧ (c.kind = .create → d.named = some c.key.param)

theorem checkPartner_eq_none_iff {i : Nat} {c : Change} :
    checkPartner s l i c = none ↔ ∀ q, partnerOf s.slots c = some q →
      ∃ d, l.find? (fun d => d.key == { c.key with param := q }) = some d ∧ suitsPartner c d := by
  unfold checkPartner suitsPartner
  split
  · next h => simp [h]
  · next q h =>
    split
    · next hf => simp [h, hf]
    · next d hf => simp [h, hf]

theorem checkBounds_eq_none_iff {i : Nat} {c : Change} :
    checkBounds s i c = none ↔ ∀ low high v, c.effective s.slots = some (low, high, v) →
      boundsOrdered low high = true ∧ aboveLow low v = true ∧ belowHigh high v = true := by
  unfold checkBounds
  split
  · next h => simp [h]
  · next low high v h =>
    simp only [h, Option.some.injEq, Prod.mk.injEq]
    constructor
    · rintro hnone _ _ _ ⟨rfl, rfl, rfl⟩
      split at hnone
      · cases hnone
      · split at hnone
        · cases hnone
        · simp_all
    · intro hall
      obtain ⟨hord, hlow, hhigh⟩ := hall low high v ⟨rfl, rfl, rfl⟩
      simp [hord, hlow, hhigh]

theorem checkRepair_eq_none_iff {i : Nat} {c : Change} :
    checkRepair s i c = none ↔ (damagedAt s.slots c.key = true → c.wholeBody = true) := by
  simp [checkRepair]

theorem holds_iff_mem {p : Proposal} {k : Key} : p.holds k = true ↔ k ∈ keysOf p.changes := by
  rw [holds_iff, keysOf, List.mem_map]

theorem checkConflict_eq_none_iff {i : Nat} {c : Change} :
    checkConflict s i c = none ↔ ∀ p ∈ s.proposals, c.key ∉ keysOf p.changes := by
  unfold checkConflict
  split
  · next h => simpa [holds_iff_mem] using h
  · next p h =>
    have hp : p.holds c.key = true := by simpa using List.find?_some h
    simpa using ⟨p, List.mem_of_find?_eq_some h, holds_iff_mem.1 hp⟩

/-! ### A check fails on a change where the change has a fault of its number -/

/-- The checks that are made change by change, by their numbers in Table 19. -/
def changeCheck (s : State) (role : Role) (l : List Change) (n : Nat) : Nat → Change → Option Reply :=
  match n with
  | 2 => checkRole s role
  | 3 => checkExists s
  | 4 => checkRevision s
  | 5 => checkPartner s l
  | 6 => checkBounds s
  | 7 => checkRepair s
  | 8 => checkConflict s
  | _ => fun _ _ => none

/-- Table 19: the checks of the changes in order of their numbers, then the room of the table and of the list. -/
theorem submissionChecks_eq (s : State) (role : Role) (l : List Change) :
    submissionChecks s role l = (List.range' 2 7).foldr
      (fun n r => (checkEach (changeCheck s role l n) 0 l).or r) ((checkRoom s l).or (checkList s)) := rfl

/-- With distinct keys, the first change of a key is the change of that key. -/
theorem find_key_eq_some (hn : (keysOf l).Nodup) {k : Key} {d : Change} (hd : d ∈ l) (hk : d.key = k) :
    l.find? (fun d => d.key == k) = some d := by
  cases hf : l.find? (fun d => d.key == k) with
  | none => exact absurd (List.find?_eq_none.1 hf d hd) (by simp [hk])
  | some d' =>
    have hk' : d'.key = k := by simpa using List.find?_some hf
    rw [List.inj_on_of_nodup_map hn (List.mem_of_find?_eq_some hf) hd (hk'.trans hk.symm)]

/-- R49: a key is in one open proposal at most. -/
theorem proposal_eq_of_key (h : ProposalLaw s) {p q : Proposal} {k : Key} (hp : p ∈ s.proposals)
    (hq : q ∈ s.proposals) (hkp : k ∈ keysOf p.changes) (hkq : k ∈ keysOf q.changes) : p = q := by
  obtain ⟨-, -, -, -, hkeys, -⟩ := h
  have hdisjoint := (List.nodup_flatMap.1 hkeys).2
  have hsymm : Std.Symm (Function.onFun List.Disjoint fun p : Proposal => keysOf p.changes) :=
    ⟨fun _ _ => List.Disjoint.symm⟩
  by_contra hne
  exact hdisjoint.forall hp hq hne hkp hkq

theorem find_holds_eq_some (h : ProposalLaw s) {p : Proposal} {k : Key} (hp : p ∈ s.proposals)
    (hk : k ∈ keysOf p.changes) : s.proposals.find? (fun p => p.holds k) = some p := by
  cases hf : s.proposals.find? (fun p => p.holds k) with
  | none => exact absurd (holds_iff_mem.2 hk) (List.find?_eq_none.1 hf p hp)
  | some q =>
    have hq : q.holds k = true := by simpa using List.find?_some hf
    rw [proposal_eq_of_key h (List.mem_of_find?_eq_some hf) hp (holds_iff_mem.1 hq) hk]

theorem partnerOf_of_create {m : SlotMap Entry} {c : Change} (h : c.kind = .create) : partnerOf m c = c.named := by
  cases c with
  | set => cases h
  | create => rfl
  | retire => cases h

/-- A faulty change fails the check of its fault, and is answered as the fault says. -/
theorem changeCheck_of_fault (hp : ProposalLaw s) (hl : (keysOf l).Nodup) {n i : Nat} {c : Change} {code : AnswerCode}
    {result : List Byte} (h : SubmitFault s role l n i c code result) :
    changeCheck s role l n i c = some (.now code result) := by
  cases h with
  | denied _ _ hrole hplain => 
    rw [← plainTrim_iff] at hplain
    simp [changeCheck, checkRole, hrole, hplain]
  | closed _ _ hrole hcls hrel =>
    rw [← plainTrim_iff] at hrole
    have hbars := releaseBars_iff.2 ⟨hcls, hrel⟩
    simpa [changeCheck, checkRole, hbars] using hrole
  | absent _ _ hkind hentry => cases hk : c.kind <;> simp_all [changeCheck, checkExists]
  | present _ _ e hkind hentry => simp [changeCheck, checkExists, hkind, hentry]
  | revision _ _ x hx hne => simp [changeCheck, checkRevision, hx, hne]
  | alone _ _ q hkind hq hnone =>
    have hf : l.find? (fun d => d.key == { c.key with param := q }) = none :=
      List.find?_eq_none.2 fun d hd => by simpa using hnone d hd
    simp [changeCheck, checkPartner, hq, hf, hkind]
  | otherKind _ _ d q hkind hq hd hk hdk =>
    simp [changeCheck, checkPartner, hq, find_key_eq_some hl hd hk, hdk]
  | unpaired _ _ q hkind hq hnone =>
    rw [← partnerOf_of_create (m := s.slots) hkind] at hq
    cases hf : l.find? (fun d => d.key == { c.key with param := q }) with
    | none => simp [changeCheck, checkPartner, hq, hf, hkind]
    | some d =>
      have hd := hnone d (List.mem_of_find?_eq_some hf) (by simpa using List.find?_some hf)
      simpa [changeCheck, checkPartner, hq, hf, hkind] using hd
  | bounds _ _ low high v hc hlt =>
    simp [changeCheck, checkBounds, hc, boundsOrdered, hlt]
  | outside _ _ low high v hc hord hout =>
    have hvalue : (aboveLow low v && belowHigh high v) = false := by
      rw [Bool.and_eq_false_iff, Bool.eq_false_iff, Bool.eq_false_iff, ne_eq, ne_eq, aboveLow_iff, belowHigh_iff]
      push Not
      exact hout
    simp [changeCheck, checkBounds, hc, boundsOrdered_iff.2 hord, hvalue]
  | repair _ k x v low high t e he hb hpart =>
    have hd := damagedAt_iff.2 ⟨e, he, hb⟩
    have hwhole : (Change.set k x v low high t).wholeBody = false := by
      rcases hpart with rfl | rfl | rfl <;> simp [Change.wholeBody]
    simp [changeCheck, checkRepair, Change.key, hd, hwhole]
  | conflict _ _ p hmem hk => simp [changeCheck, checkConflict, find_holds_eq_some hp hmem hk]

/-- A change fails check 2 by the role, or, where the role may propose it, by the release. -/
theorem fault_of_checkRole {i : Nat} {c : Change} (h : checkRole s role i c ≠ none) :
    ∃ code result, SubmitFault s role l 2 i c code result := by
  rw [ne_eq, checkRole_eq_none_iff, plainTrim_iff] at h
  by_cases hrole : role = .operator → c.valueOnly = true ∧ classAt s.slots c = some .tunable
  · have hbars : s.releaseBars c = true := by simpa using fun hb => h ⟨hrole, hb⟩
    obtain ⟨hcls, hrel⟩ := releaseBars_iff.1 hbars
    exact ⟨_, _, .closed i c hrole hcls hrel⟩
  · rw [Classical.not_imp] at hrole
    exact ⟨_, _, .denied i c hrole.1 hrole.2⟩

theorem fault_of_checkExists {i : Nat} {c : Change} (h : checkExists s i c ≠ none) :
    ∃ code result, SubmitFault s role l 3 i c code result := by
  rw [ne_eq, checkExists_eq_none_iff] at h
  cases he : entryAt s.slots c.key with
  | none => exact ⟨_, _, .absent i c (fun hk => h ⟨fun _ => he, fun _ => hk⟩) he⟩
  | some e =>
    by_cases hk : c.kind = .create
    · exact ⟨_, _, .present i c e hk he⟩
    · exact absurd ⟨fun hk' => absurd hk' hk, fun he' => by simp [he] at he'⟩ h

theorem fault_of_checkRevision {i : Nat} {c : Change} (h : checkRevision s i c ≠ none) :
    ∃ code result, SubmitFault s role l 4 i c code result := by
  rw [ne_eq, checkRevision_eq_none_iff] at h
  push Not at h
  obtain ⟨x, hx, hne⟩ := h
  exact ⟨_, _, .revision i c x hx hne⟩

/-- A change fails check 5 where the draft has no change of the partner, or has one that does not suit. -/
theorem fault_of_checkPartner (hl : (keysOf l).Nodup) {i : Nat} {c : Change} (h : checkPartner s l i c ≠ none) :
    ∃ code result, SubmitFault s role l 5 i c code result := by
  rw [ne_eq, checkPartner_eq_none_iff] at h
  push Not at h
  obtain ⟨q, hq, hno⟩ := h
  have hunsuited : ∀ d ∈ l, d.key = { c.key with param := q } → ¬ suitsPartner c d :=
    fun d hd hk => hno d (find_key_eq_some hl hd hk)
  by_cases hkind : c.kind = .create
  · exact ⟨_, _, .unpaired i c q hkind (partnerOf_of_create (m := s.slots) hkind ▸ hq)
      fun d hd hk hdk hnamed => hunsuited d hd hk ⟨hdk.trans hkind.symm, fun _ => hnamed⟩⟩
  · by_cases hmate : ∃ d ∈ l, d.key = { c.key with param := q }
    · obtain ⟨d, hd, hk⟩ := hmate
      exact ⟨_, _, .otherKind i c d q hkind hq hd hk
        fun hdk => hunsuited d hd hk ⟨hdk, fun hcreate => absurd hcreate hkind⟩⟩
    · push Not at hmate
      exact ⟨_, _, .alone i c q hkind hq hmate⟩

/-- A change fails check 6 by its bounds, or, where they are in order, by its value. -/
theorem fault_of_checkBounds {i : Nat} {c : Change} (h : checkBounds s i c ≠ none) :
    ∃ code result, SubmitFault s role l 6 i c code result := by
  rw [ne_eq, checkBounds_eq_none_iff] at h
  push Not at h
  obtain ⟨low, high, v, hc, hbad⟩ := h
  rw [boundsOrdered_iff, aboveLow_iff, ne_eq, belowHigh_iff] at hbad
  by_cases hord : ∀ lo hi, low = some lo → high = some hi → lo.toInt ≤ hi.toInt
  · refine ⟨_, _, .outside i c low high v hc hord ?_⟩
    by_cases hlow : ∀ lo, low = some lo → lo.toInt ≤ v.toInt
    · have hhigh := hbad hord hlow
      push Not at hhigh
      exact .inr hhigh
    · push Not at hlow
      exact .inl hlow
  · push Not at hord
    obtain ⟨lo, hi, rfl, rfl, hlt⟩ := hord
    exact ⟨_, _, .bounds i c lo hi v hc hlt⟩

theorem fault_of_checkRepair {i : Nat} {c : Change} (h : checkRepair s i c ≠ none) :
    ∃ code result, SubmitFault s role l 7 i c code result := by
  rw [ne_eq, checkRepair_eq_none_iff, Classical.not_imp] at h
  obtain ⟨hdamaged, hwhole⟩ := h
  obtain ⟨e, he, hb⟩ := damagedAt_iff.1 hdamaged
  cases c with
  | set k x v low high t =>
    refine ⟨_, _, .repair i k x v low high t e he hb ?_⟩
    by_contra hparts
    exact hwhole (by simpa [Change.wholeBody, Option.isSome_iff_ne_none, and_assoc] using hparts)
  | create => exact absurd rfl hwhole
  | retire => exact absurd rfl hwhole

theorem fault_of_checkConflict {i : Nat} {c : Change} (h : checkConflict s i c ≠ none) :
    ∃ code result, SubmitFault s role l 8 i c code result := by
  rw [ne_eq, checkConflict_eq_none_iff] at h
  push Not at h
  obtain ⟨p, hp, hk⟩ := h
  exact ⟨_, _, .conflict i c p hp hk⟩

/-- A change that fails a check has a fault of the check's number. -/
theorem fault_of_changeCheck (hl : (keysOf l).Nodup) {n i : Nat} {c : Change}
    (h : changeCheck s role l n i c ≠ none) : ∃ code result, SubmitFault s role l n i c code result := by
  unfold changeCheck at h
  split at h
  · exact fault_of_checkRole h
  · exact fault_of_checkExists h
  · exact fault_of_checkRevision h
  · exact fault_of_checkPartner hl h
  · exact fault_of_checkBounds h
  · exact fault_of_checkRepair h
  · exact fault_of_checkConflict h
  · exact absurd rfl h

/-! ### The order of the checks -/

/-- The checks made change by change are those of numbers 2 to 8. -/
theorem number_of_fault {n i : Nat} {c : Change} {code : AnswerCode} {result : List Byte}
    (h : SubmitFault s role l n i c code result) : n ∈ List.range' 2 7 := by
  cases h <;> decide

/-- Of some checks in rising order, the lowest that fails gives the answer. -/
theorem foldr_or_eq_some {F : Nat → Option Reply} {n : Nat} {r : Reply} (last : Option Reply) {ns : List Nat}
    (hsorted : ns.Pairwise (· < ·)) (hn : n ∈ ns) (hr : F n = some r) (hlow : ∀ m < n, F m = none) :
    ns.foldr (fun m r => (F m).or r) last = some r := by
  induction ns with
  | nil => cases hn
  | cons m ns ih =>
    obtain ⟨hm, hns⟩ := List.pairwise_cons.1 hsorted
    rw [List.foldr_cons]
    rcases List.mem_cons.1 hn with rfl | hn
    · rw [hr, Option.some_or]
    · rw [hlow m (hm n hn), Option.none_or, ih hns hn]

/-- Where every check passes, what follows them gives the answer. -/
theorem foldr_or_eq_last {F : Nat → Option Reply} (last : Option Reply) (ns : List Nat) (h : ∀ m, F m = none) :
    ns.foldr (fun m r => (F m).or r) last = last := by
  induction ns with
  | nil => rfl
  | cons m ns ih => rw [List.foldr_cons, h, Option.none_or, ih]

/-- Submission passes where every check does. -/
theorem submissionChecks_eq_none (h : submissionChecks s role l = none) {n : Nat} (hn : n ∈ List.range' 2 7)
    {c : Change} (hc : c ∈ l) : ∃ i, changeCheck s role l n i c = none := by
  rw [submissionChecks_eq] at h
  obtain ⟨i, hi⟩ := List.getElem?_of_mem hc
  refine ⟨0 + i, checkEach_eq_none_iff.1 ?_ i c hi⟩
  revert h hn
  generalize (checkRoom s l).or (checkList s) = last
  induction List.range' 2 7 with
  | nil => simp
  | cons m ns ih =>
    rw [List.foldr_cons, Option.or_eq_none_iff, List.mem_cons]
    rintro ⟨hm, hns⟩ (rfl | hn)
    · exact hm
    · exact ih hns hn

/-- Where no change has a fault, the changes' checks all pass. -/
theorem submissionChecks_of_no_fault (hl : (keysOf l).Nodup)
    (h : ∀ (m j : Nat) (d : Change) (code : AnswerCode) (result : List Byte),
      l[j]? = some d → ¬ SubmitFault s role l m j d code result) :
    submissionChecks s role l = (checkRoom s l).or (checkList s) := by
  rw [submissionChecks_eq]
  refine foldr_or_eq_last _ _ fun m => checkEach_eq_none_iff.2 fun j d hd => ?_
  by_contra hfail
  obtain ⟨code, result, hfault⟩ := fault_of_changeCheck hl hfail
  exact h m (0 + j) d code result (by rwa [Nat.zero_add]) hfault

/-- R44: the fault of the lowest check, and in it of the lowest change, gives the answer. -/
theorem submissionChecks_of_first_fault (hp : ProposalLaw s) (hl : (keysOf l).Nodup) {n i : Nat} {c : Change}
    {code : AnswerCode} {result : List Byte} (hc : l[i]? = some c) (hfault : SubmitFault s role l n i c code result)
    (hfirst : ∀ (m j : Nat) (d : Change) (code' : AnswerCode) (result' : List Byte),
      l[j]? = some d → SubmitFault s role l m j d code' result' → n < m ∨ (n = m ∧ i ≤ j)) :
    submissionChecks s role l = some (.now code result) := by
  have hearlier : ∀ m j d, l[j]? = some d → ¬ (n < m ∨ (n = m ∧ i ≤ j)) →
      changeCheck s role l m (0 + j) d = none := by
    intro m j d hd hbefore
    rw [Nat.zero_add]
    by_contra hfail
    obtain ⟨code', result', hfault'⟩ := fault_of_changeCheck hl hfail
    exact hbefore (hfirst m j d code' result' hd hfault')
  rw [submissionChecks_eq]
  refine foldr_or_eq_some _ List.pairwise_lt_range' (number_of_fault hfault) ?_ fun m hm => ?_
  · refine checkEach_eq_some hc ?_ fun j d hj hd => hearlier n j d hd (by omega)
    rw [Nat.zero_add]
    exact changeCheck_of_fault hp hl hfault
  · exact checkEach_eq_none_iff.2 fun j d hd => hearlier m j d hd (by omega)

/-! ### What changes that pass satisfy -/

/-- R47: a passing change's partner is changed with it, in the same way. -/
theorem partner_of_checkPartner {i : Nat} {c : Change} (h : checkPartner s l i c = none) {q : ParamNo}
    (hq : partnerOf s.slots c = some q) : ∃ d ∈ l, d.key = { c.key with param := q } ∧ d.kind = c.kind ∧
      (c.kind = .create → d.named = some c.key.param) := by
  obtain ⟨d, hf, hkind, hnamed⟩ := checkPartner_eq_none_iff.1 h q hq
  exact ⟨d, List.mem_of_find?_eq_some hf, by simpa using List.find?_some hf, hkind, hnamed⟩

/-- R45: no passing change is FIXED with the release closed. -/
theorem release_of_checkRole {i : Nat} {c : Change} (h : checkRole s role i c = none)
    (hcls : classAt s.slots c = some .fixed) : s.release ≠ none := by
  intro hrel
  have hbars := (checkRole_eq_none_iff.1 h).2
  rw [releaseBars_iff.2 ⟨hcls, hrel⟩] at hbars
  cases hbars

/-- Settles O18: what a passing check says of a change is its `eq_none_iff`, the first fault gives the answer by
`submissionChecks_of_first_fault`, and without a fault the room decides. -/
theorem submittedChangesInOrder : Obligations.SubmittedChangesInOrder := by
  unfold Obligations.SubmittedChangesInOrder
  refine ⟨?_, ?_, fun s => rfl⟩
  · intro s role l h c hc
    obtain ⟨_, hrole⟩ := submissionChecks_eq_none h (n := 2) (by decide) hc
    obtain ⟨_, hexists⟩ := submissionChecks_eq_none h (n := 3) (by decide) hc
    obtain ⟨_, hrevision⟩ := submissionChecks_eq_none h (n := 4) (by decide) hc
    obtain ⟨_, hpartner⟩ := submissionChecks_eq_none h (n := 5) (by decide) hc
    obtain ⟨_, hbounds⟩ := submissionChecks_eq_none h (n := 6) (by decide) hc
    obtain ⟨_, hrepair⟩ := submissionChecks_eq_none h (n := 7) (by decide) hc
    obtain ⟨_, hconflict⟩ := submissionChecks_eq_none h (n := 8) (by decide) hc
    refine ⟨fun low high v heff => ?_, checkRepair_eq_none_iff.1 hrepair, checkExists_eq_none_iff.1 hexists,
      checkRevision_eq_none_iff.1 hrevision, fun q => partner_of_checkPartner hpartner,
      checkConflict_eq_none_iff.1 hconflict, release_of_checkRole hrole⟩
    obtain ⟨hord, hlow, hhigh⟩ := checkBounds_eq_none_iff.1 hbounds low high v heff
    exact ⟨boundsOrdered_iff.1 hord, aboveLow_iff.1 hlow, belowHigh_iff.1 hhigh⟩
  · intro s role l hp hl
    refine ⟨fun n i c code result => submissionChecks_of_first_fault hp hl, fun hnone => ?_⟩
    rw [submissionChecks_of_no_fault hl hnone, checkRoom, checkList]
    refine ⟨fun hroom => ?_, fun hroom hlist => ?_, fun hroom hlist => ?_⟩
    · rw [if_pos hroom, Option.some_or]
    · rw [if_neg (Nat.not_lt.2 hroom), Option.none_or]
      exact if_pos hlist
    · rw [if_neg (Nat.not_lt.2 hroom), Option.none_or]
      exact if_neg (Nat.not_le.2 hlist)

end Sys2Proof.Machine
end

section
/-! The digest term, the expected pairs as sums over the parameters, and a completion's digests (R26 to R28, R33). -/

namespace Sys2Proof.Machine

/-! ### The term (R26) -/

theorem digestTerm_toNat (p : ParamNo) (v : Word) :
    (digestTerm p v).toNat = (3 * v.toNat + 65537 * p.val + 1) % 2 ^ 32 := by
  have h3 : (3 : Word).toNat = 3 := rfl
  have h1 : (1 : Word).toNat = 1 := rfl
  simp only [digestTerm, BitVec.toNat_add, BitVec.toNat_mul, BitVec.toNat_ofNat, h3, h1]
  omega

/-- Read signed, a value differs from its unsigned pattern by a multiple of 2^32, which the term does not see. -/
theorem digestTerm_toNat_signed (p : ParamNo) (v : Word) :
    ((digestTerm p v).toNat : Int) = (3 * v.toInt + 65537 * p.val + 1) % 2 ^ 32 := by
  have hv := BitVec.toInt_eq_toNat_cond v
  rw [digestTerm_toNat]
  split at hv <;> omega

/-- Settles O11: the term in unsigned arithmetic, its signed reading, and the rows of Table 14 evaluated. -/
theorem digestTermFormula : Obligations.DigestTermFormula :=
  ⟨digestTerm_toNat, digestTerm_toNat_signed, by decide, by decide, by decide, by decide, by decide, by decide⟩

/-! ### The pairs as sums (R27, R35) -/

/-- A sum of ones over the elements of a kind is their number. -/
theorem sum_map_indicator {α : Type} (p : α → Bool) (l : List α) :
    (l.map fun x => if p x then 1 else 0).sum = (l.filter p).length := by
  induction l with
  | nil => rfl
  | cons x l ih =>
    rw [List.map_cons, List.sum_cons, ih, List.filter_cons]
    cases p x <;> simp [Nat.add_comm]

theorem entryContribution_digest (p : ParamNo) (e : Option Entry) :
    (entryContribution p e).digest = match e.bind Entry.body with
      | none => 0
      | some b => digestTerm p b.value := by
  unfold entryContribution
  cases e.bind Entry.body <;> rfl

theorem entryContribution_count (p : ParamNo) (e : Option Entry) :
    (entryContribution p e).count = if (e.bind Entry.body).isSome then 1 else 0 := by
  unfold entryContribution
  cases e.bind Entry.body <;> rfl

/-- The pair that is read of a product format is that of its place in the station's row. -/
theorem pairOf_productFormat (s : State) (st : StationNo) (i : Fin 15) :
    s.pairOf st (productFormat i) = sel (sel s.digests st) i := by
  simp [State.pairOf, productFormat]

theorem sel_rebuildDigests (m : SlotMap Entry) (st : StationNo) (i : Fin 15) :
    sel (sel (rebuildDigests m) st) i = computePair m st (productFormat i) := by
  simp [rebuildDigests, sel]

/-- Each format but 0 is a product format. -/
theorem exists_productFormat {f : FormatNo} (h : f ≠ 0) : ∃ i, productFormat i = f := by
  have hf : f.val ≠ 0 := fun h0 => h (Fin.ext h0)
  exact ⟨⟨f.val - 1, by omega⟩, Fin.ext (by simp [productFormat]; omega)⟩

/-- The digest table is the one computed whole exactly where each pair that is read is. -/
theorem digests_eq_rebuild_iff (s : State) (m : SlotMap Entry) : s.digests = rebuildDigests m ↔
    ∀ (st : StationNo) (f : FormatNo), f ≠ 0 → s.pairOf st f = computePair m st f := by
  constructor
  · intro h st f hf
    obtain ⟨i, rfl⟩ := exists_productFormat hf
    rw [pairOf_productFormat, h, sel_rebuildDigests]
  · intro h
    refine bank_ext fun st => bank_ext fun i => ?_
    rw [sel_rebuildDigests, ← pairOf_productFormat]
    exact h st _ (Fin.ne_of_val_ne (Nat.succ_ne_zero i.val))

/-- Settles O12: the pair is the sum of the parameters' contributions (`computePair_eq_sum`), and a contribution is
read off the entry that resolves. -/
theorem expectedPairIsSum : Obligations.ExpectedPairIsSum := by
  refine ⟨fun m st f hu => ?_, digests_eq_rebuild_iff⟩
  rw [computePair_eq_sum hu]
  refine ⟨?_, ?_⟩
  · rw [Fin.sum_univ_def]
    generalize List.finRange 1024 = l -- nothing rests on which parameters there are
    exact congrArg List.sum (List.map_congr_left fun p _ => entryContribution_digest p _)
  · simp only [contribution, entryContribution_count, Fin.sum_univ_def, sum_map_indicator]

/-! ### A completion's digests (R33) -/

/-- Settles O13: the results of the item are placed as the premises have its plans, so the corrected digests are those
computed whole. -/
theorem completionKeepsDigests : Obligations.CompletionKeepsDigests := by
  intro o s ch number plans results hw hlen hm hu hdigest hslots hkeys hplans
  obtain ⟨p, hp⟩ : ∃ p, plans[results.length]? = some p := ⟨_, List.getElem?_eq_getElem (by omega)⟩
  refine ⟨_, exec_proposalItemCompletion o hw hlen hp, ?_⟩
  have hto := endItem_to ch number plans results p o s
  have hall := finalResults_plans p o s.array hlen
  have hmem : ∀ d ∈ finalResults plans results p o s.array, d.1 ∈ plans := fun d hd => hall ▸ List.mem_map_of_mem hd
  generalize finalResults plans results p o s.array = all at hto hall hmem
  subst hall
  rw [List.map_map] at hslots hkeys
  have hplaced : ResultsPlaced s.slots all :=
    ⟨⟨hslots, fun d hd => (hplans _ (hmem d hd)).1⟩, hkeys, fun d hd => (hplans _ (hmem d hd)).2⟩
  have htable := hplaced.tableResults s.freed
  unfold DigestLaw at hdigest ⊢
  rw [hto.digests, hto.slots, hdigest]
  refine ⟨htable.keysUnique hm hu, ?_⟩
  rw [← htable.correctDigests hm hu, tableResults_map SlotPlan.key]

end Sys2Proof.Machine
end

section
/-! The end of the start-up scan (R89 to R92): its own writes, what it counts, and the running state it leaves. -/

namespace Sys2Proof.Machine

/-! ### The scan's own writes (R91) -/

/-- Slots given a free header, each once: each keeps its body under the header that its write leaves, and the others stay
as they are. -/
theorem slot_foldl_freeHeader {l : List Nat} {a : NvArray} (left : Nat → Left) (ha : a.wf = true) (hn : l.Nodup)
    (hl : ∀ n ∈ l, n < Config.slotCount) (n : Nat) :
    (l.foldl (fun b k => freeHeader (left k) k b) a).slot n =
      if n ∈ l then ⟨leaves (left n) (a.slot n).header .free .failed, (a.slot n).body⟩ else a.slot n := by
  induction l generalizing a with
  | nil => simp
  | cons k l ih =>
    obtain ⟨hk, hn⟩ := List.nodup_cons.1 hn
    have ha' : (freeHeader (left k) k a).wf = true := wf_writeSlot _ ha (hl k List.mem_cons_self)
    rw [List.foldl_cons, ih ha' hn fun x hx => hl x (List.mem_cons_of_mem _ hx)]
    by_cases hnk : n = k
    · subst hnk
      rw [if_neg hk, if_pos List.mem_cons_self]
      exact slot_writeSlot_same _ _ ha
    · have hslot : (freeHeader (left k) k a).slot n = a.slot n := slot_writeSlot_ne a _ hnk
      simp only [hslot, List.mem_cons, hnk, false_or]

/-- The scan frees the headers of the slots whose header is not free and that the table does not hold. -/
theorem mem_slotsToFree {m : SlotMap Entry} {a : NvArray} {n : Nat} (ha : a.wf = true) :
    n ∈ slotsToFree m a ↔ (a.slot n).header ≠ .free ∧ slotGet m n = none := by
  simp only [NvArray.wf, Bool.and_eq_true] at ha
  simp only [slotsToFree, List.mem_map, List.mem_filter, Bool.and_eq_true, bne_iff_ne, ne_eq, Option.isNone_iff_eq_none]
  constructor
  · rintro ⟨⟨k, c⟩, ⟨hx, hhead, hfree⟩, rfl⟩
    refine ⟨?_, hfree⟩
    rwa [NvArray.slot, slotGet_of_mem ha.1 hx]
  · rintro ⟨hhead, hfree⟩
    unfold NvArray.slot at hhead
    cases hc : slotGet a.slots n with
    | none => rw [hc] at hhead; exact absurd rfl hhead
    | some c => rw [hc] at hhead; exact ⟨(n, c), ⟨mem_of_slotGet hc, hhead, hfree⟩, rfl⟩

theorem slotsToFree_nodup {m : SlotMap Entry} {a : NvArray} (ha : a.wf = true) : (slotsToFree m a).Nodup := by
  simp only [NvArray.wf, Bool.and_eq_true] at ha
  exact ((slotsRise_pairwise ha.1).sublist (List.filter_sublist.map _)).imp Nat.ne_of_lt

/-- A slot of the array after the scan's own writes. -/
theorem slot_scanWrites {a : NvArray} (d : Left) (w : ScanWrites) (m : SlotMap Entry) (ha : a.wf = true) (n : Nat) :
    (scanWrites d w m a).slot n =
      if n ∈ slotsToFree m a then
        ⟨leaves (scanLeft w (.slot n) d) (a.slot n).header .free .failed, (a.slot n).body⟩
      else a.slot n := by
  rw [← slot_foldl_freeHeader (fun k => scanLeft w (.slot k) d) ha (slotsToFree_nodup ha) (slotsToFree_lt m ha) n]
  simp only [scanWrites, NvArray.slot]

theorem slot_scanWrites_kept {a : NvArray} {d : Left} {w : ScanWrites} {m : SlotMap Entry} {n : Nat}
    (ha : a.wf = true) (h : (a.slot n).header = .free ∨ slotGet m n ≠ none) :
    (scanWrites d w m a).slot n = a.slot n := by
  refine (slot_scanWrites d w m ha n).trans (if_neg fun hn => ?_)
  obtain ⟨hhead, hfree⟩ := (mem_slotsToFree ha).1 hn
  exact h.elim hhead (· hfree)

theorem slot_scanWrites_freed {a : NvArray} {d : Left} {w : ScanWrites} {m : SlotMap Entry} {n : Nat}
    (ha : a.wf = true) (hhead : (a.slot n).header ≠ .free) (hfree : slotGet m n = none) :
    (scanWrites d w m a).slot n =
      ⟨leaves (scanLeft w (.slot n) d) (a.slot n).header .free .failed, (a.slot n).body⟩ :=
  (slot_scanWrites d w m ha n).trans (if_pos ((mem_slotsToFree ha).2 ⟨hhead, hfree⟩))

/-- A failed record holds its delivery content after a write that leaves the new content, and fails again after any
other. -/
theorem replaceRecord_failed {α : Type} (w : ScanWrites) (t : ScanTarget) (delivery : α) :
    replaceRecord (scanLeft w t .new) delivery .failed =
      if (w.find? fun x => x.1 == t).map Prod.snd ∈ [none, some .new] then .valid delivery else .failed := by
  unfold scanLeft
  cases (w.find? fun x => x.1 == t).map Prod.snd with
  | none => rfl
  | some l => cases l <;> rfl

/-! ### What is counted (R91) -/

/-- A slot after the partner pass: freed where its entry is an orphan, else holding what step 2 makes of the entry. -/
theorem slotGet_partnerPass {m : SlotMap Entry} {n : Nat} {e : Entry} (hm : workingWf m = true) (he : (n, e) ∈ m) :
    slotGet (partnerPass m) n = if orphaned m e then none else some (settled (freeOrphans m) e) := by
  have hpass := workingWf_partnerPass hm
  have honly : ∀ e', (n, e') ∈ m → e' = e := fun e' he' =>
    Option.some.inj ((slotGet_of_mem hm he').symm.trans (slotGet_of_mem hm he))
  split
  · next horphan =>
    refine Option.eq_none_iff_forall_ne_some.2 fun x hx => ?_
    obtain ⟨e', he', hstands, -⟩ := mem_partnerPass.1 (mem_of_slotGet hx)
    rw [honly e' he', ← orphaned_eq_false, horphan] at hstands
    cases hstands
  · next horphan =>
    have hstands := orphaned_eq_false.1 (Bool.eq_false_iff.2 horphan)
    exact slotGet_of_mem hpass (mem_partnerPass.2 ⟨e, he, hstands, rfl⟩)

/-- The pass takes an entry from ACTIVE where it frees it as an orphan or damages it in step 2. -/
theorem takenFromActive_eq {m : SlotMap Entry} {n : Nat} {e : Entry} (hm : workingWf m = true) (he : (n, e) ∈ m) :
    (e.body.isSome && ((slotGet (partnerPass m) n).bind Entry.body).isNone) =
      if orphaned m e then e.body.isSome else unequal (freeOrphans m) e := by
  rw [slotGet_partnerPass hm he]
  cases orphaned m e with
  | true => simp
  | false =>
    cases hne : unequal (freeOrphans m) e with
    | true =>
      obtain ⟨-, -, b, -, -, -, hb, -⟩ := unequal_iff.1 hne
      simp [settled, hne, hb]
    | false => simp [settled, hne]

/-- R91: the partner pass counts the entries that it takes from ACTIVE. -/
theorem passFaults_eq {m : SlotMap Entry} (hm : workingWf m = true) :
    passFaults m = (m.filter fun x => x.2.body.isSome &&
      ((slotGet (partnerPass m) x.1).bind Entry.body).isNone).length := by
  have htaken : (m.filter fun x => x.2.body.isSome && ((slotGet (partnerPass m) x.1).bind Entry.body).isNone) =
      m.filter fun x => if orphaned m x.2 then x.2.body.isSome else unequal (freeOrphans m) x.2 :=
    List.filter_congr fun x hx => takenFromActive_eq hm hx
  rw [htaken, ← List.countP_eq_length_filter, List.countP_eq_countP_filter_add _ _ fun x => orphaned m x.2, passFaults]
  refine congrArg₂ (· + ·) ?_ ?_
  · rw [List.countP_filter, List.countP_eq_length_filter]
    refine congrArg List.length (List.filter_congr fun x _ => ?_)
    cases orphaned m x.2 <;> simp
  · rw [List.countP_filter, List.countP_eq_length_filter, freeOrphans, List.filter_filter]
    refine congrArg List.length (List.filter_congr fun x _ => ?_)
    cases orphaned m x.2 <;> simp

/-- The failed records of a bank, as the start faults count them. -/
theorem sum_fault {α : Type} [DecidableEq α] {n : Nat} (b : Bank n (NvRecord α)) :
    (b.toList.map NvRecord.fault).sum = ((List.finRange n).filter fun i => decide (sel b i = .failed)).length := by
  have hlist : b.toList = (List.finRange n).map (sel b) :=
    List.ext_getElem (by simp) fun i hi hi' => by simp [sel]
  rw [hlist, List.map_map, ← sum_map_indicator]
  refine congrArg List.sum (List.map_congr_left fun i _ => ?_)
  rw [Function.comp_apply]
  cases sel b i <;> simp [NvRecord.fault]

theorem recordFaults_eq (a : NvArray) : recordFaults a =
    ((List.finRange 32).filter fun st => decide (sel a.stations st = .failed)).length +
      ((List.finRange 4).filter fun sec => decide (sel a.sections sec = .failed)).length +
      (if a.moduleRec = .failed then 1 else 0) := by
  rw [recordFaults, sum_fault, sum_fault]
  cases a.moduleRec <;> rfl

/-! ### The recompute of the sections (R125, R142) -/

/-- What the recompute leaves in the section's own record. -/
def State.recomputed (s : State) (sec : SectionNo) : SectionRec :=
  if s.changing sec then sel s.sections sec
  else
    match s.formatsIn sec with
    | [] => ⟨(sel s.sections sec).persist, .steady⟩
    | f :: rest =>
      if rest.all fun g => g == f then ⟨{ (sel s.sections sec).persist with format := f }, .steady⟩
      else ⟨(sel s.sections sec).persist, .split⟩

theorem steadyOn_sections (sec : SectionNo) (f : FormatNo) (s : State) :
    (steadyOn sec f s).sections = upd s.sections sec ⟨{ (sel s.sections sec).persist with format := f }, .steady⟩ := by
  unfold steadyOn
  dsimp only
  split
  · rfl
  · exact enqueue_sections _ _

theorem recompute_sections (sec : SectionNo) (s : State) :
    (recompute sec s).sections = upd s.sections sec (s.recomputed sec) := by
  unfold recompute State.recomputed
  split
  · exact (upd_sel _ _).symm
  · cases s.formatsIn sec with
    | nil => exact steadyOn_sections _ _ _
    | cons f rest =>
      dsimp only
      split
      · exact steadyOn_sections _ _ _
      · rfl

/-- A recompute looks at the stations and at the section's own record. -/
theorem recomputed_congr {s t : State} {sec : SectionNo} (hst : t.stations = s.stations)
    (hsec : sel t.sections sec = sel s.sections sec) : t.recomputed sec = s.recomputed sec := by
  simp only [State.recomputed, State.changing, State.formatsIn, State.enrolledIn, hst, hsec]

/-- Sections recomputed one after another, each once, are each recomputed as they stood before. -/
theorem sel_foldl_recompute {l : List SectionNo} (hl : l.Nodup) (s : State) (sec : SectionNo) :
    sel (l.foldl (fun t x => recompute x t) s).sections sec =
      if sec ∈ l then s.recomputed sec else sel s.sections sec := by
  induction l generalizing s with
  | nil => simp
  | cons x l ih =>
    obtain ⟨hx, hl⟩ := List.nodup_cons.1 hl
    rw [List.foldl_cons, ih hl, recompute_sections]
    by_cases hsec : sec = x
    · subst hsec
      simp [hx]
    · have hrest := sel_upd_ne s.sections (s.recomputed x) hsec
      have hsame : (recompute x s).recomputed sec = s.recomputed sec :=
        recomputed_congr (recompute_stations x s) (by rw [recompute_sections, hrest])
      simp only [hsame, hrest, List.mem_cons, hsec, false_or]

theorem sel_recomputeAll (s : State) (sec : SectionNo) : sel (recomputeAll s).sections sec = s.recomputed sec :=
  (sel_foldl_recompute (List.nodup_finRange 4) s sec).trans (if_pos (List.mem_finRange sec))

/-- The state without what a recompute may change. -/
def State.sansSections (s : State) : State :=
  { s with sections := State.reset.sections, queue := [], writer := none }

theorem enqueue_sansSections (i : WriteItem) (s : State) : (enqueue i s).sansSections = s.sansSections := by
  by_cases hi : i ∈ s.queue
  · rw [enqueue_queued hi]
  · rw [enqueue_new hi]
    rcases takeItem_spec { s with queue := s.queue ++ [i] } with h | ⟨j, -, -, h⟩ <;> rw [h] <;> rfl

theorem recomputeAll_sansSections (s : State) : (recomputeAll s).sansSections = s.sansSections := by
  unfold recomputeAll
  generalize List.finRange 4 = l
  induction l generalizing s with
  | nil => rfl
  | cons sec l ih =>
    rw [List.foldl_cons, ih]
    exact recompute_frame State.sansSections (fun _ _ _ => rfl) (fun t i => enqueue_sansSections i t) sec s

theorem eq_of_sansSections {s t : State} (h : t.sansSections = s.sansSections) :
    t = { s with sections := t.sections, queue := t.queue, writer := t.writer } :=
  congrArg (fun u : State => { u with sections := t.sections, queue := t.queue, writer := t.writer }) h

/-- The recompute of the sections changes the sections, the queue and the writer alone. -/
theorem recomputeAll_eq (s : State) : recomputeAll s =
    { s with
      sections := (recomputeAll s).sections
      queue := (recomputeAll s).queue
      writer := (recomputeAll s).writer } :=
  eq_of_sansSections (recomputeAll_sansSections s)

theorem recomputeAll_in_order (s : State) :
    recomputeAll s = recompute 3 (recompute 2 (recompute 1 (recompute 0 s))) := rfl

section Recomputed

variable {s : State} {sec : SectionNo} (hs : s.changing sec = false)
include hs

/-- A section without stations is STEADY on its recorded format. -/
theorem recomputed_empty (h : s.enrolledIn sec = []) : s.recomputed sec = ⟨(sel s.sections sec).persist, .steady⟩ := by
  simp [State.recomputed, hs, State.formatsIn, h]

/-- A section whose stations are all on one format is STEADY on it. -/
theorem recomputed_uniform {f : FormatNo} (hne : s.enrolledIn sec ≠ [])
    (h : ∀ st ∈ s.enrolledIn sec, (sel s.stations st).persist.format = f) :
    s.recomputed sec = ⟨{ (sel s.sections sec).persist with format := f }, .steady⟩ := by
  cases hl : s.enrolledIn sec with
  | nil => exact absurd hl hne
  | cons st l =>
    rw [hl] at h
    have hf : (sel s.stations st).persist.format = f := h st List.mem_cons_self
    have hrest : ∀ x ∈ l, (sel s.stations x).persist.format = f := fun x hx => h x (List.mem_cons_of_mem _ hx)
    simpa [State.recomputed, hs, State.formatsIn, hl, hf] using hrest

/-- A section with stations on different formats is SPLIT on its recorded format. -/
theorem recomputed_split {st st' : StationNo} (hst : st ∈ s.enrolledIn sec) (hst' : st' ∈ s.enrolledIn sec)
    (h : (sel s.stations st).persist.format ≠ (sel s.stations st').persist.format) :
    s.recomputed sec = ⟨(sel s.sections sec).persist, .split⟩ := by
  cases hl : s.enrolledIn sec with
  | nil => rw [hl] at hst; cases hst
  | cons x l =>
    rw [hl] at hst hst'
    have hmixed : ¬ ∀ y ∈ l, (sel s.stations y).persist.format = (sel s.stations x).persist.format := by
      intro hall
      have hone : ∀ y ∈ x :: l, (sel s.stations y).persist.format = (sel s.stations x).persist.format :=
        List.forall_mem_cons.2 ⟨rfl, hall⟩
      exact h ((hone st hst).trans (hone st' hst').symm)
    simp [State.recomputed, hs, State.formatsIn, hl, hmixed]

end Recomputed

/-! ### The opening of the module (R92, R184) -/

/-- A station restored from its record has reported no digest, so none is CONFORMING. -/
theorem restoreStation_digestSeen (m : SlotMap Entry) (st : StationNo) (p : StationPersist) :
    (restoreStation m st p).digestSeen = false := by
  unfold restoreStation
  split <;> rfl

theorem derivedState_ne_conforming {r : StationRec} (h : r.digestSeen = false) : derivedState r ≠ .conforming := by
  simp only [derivedState, h, Bool.not_false, if_true]
  split_ifs <;> exact DerivedState.noConfusion

/-- Where no station is CONFORMING, an output in AUTO is commanded OFF. -/
theorem commandFormed_auto {s : State} {sec : SectionNo} (hauto : (sel s.outputs sec).mode = .auto)
    (h : ∀ st, derivedState (sel s.stations st) ≠ .conforming) : s.commandFormed sec = false := by
  simp only [State.commandFormed, hauto, State.autoCondition]
  cases s.enrolledIn sec with
  | nil => simp
  | cons st l => simp [h st]

/-- The module opens with every output as it was, where all are in AUTO and no station is CONFORMING. -/
theorem openModule_quiet {s : State} (hauto : ∀ sec, (sel s.outputs sec).mode = .auto)
    (h : ∀ st, derivedState (sel s.stations st) ≠ .conforming) :
    openModule s = { s with phase := .running, degraded := false } := by
  refine formOutputs_quiet fun sec => ?_
  have hafter : State.commandFormed { s with phase := .running, degraded := false } sec = false :=
    commandFormed_auto (hauto sec) h
  rw [commandFormed_auto (hauto sec) h, hafter]

/-- STORE is set on the channels not held in reset exactly where a start fault was counted. -/
theorem flagFaults_eq (s : State) : flagFaults s =
    { s with
      channels := each s.channels fun _ c =>
        if s.startFaults ≠ 0 ∧ c.resetHeld = false then { c with flags := { c.flags with store := true } } else c } := by
  have hflag : ∀ c : Channel, c.flag { EventSet.empty with store := true } =
      if c.resetHeld = false then { c with flags := { c.flags with store := true } } else c := by
    intro c
    cases hc : c.resetHeld
    · simp [flag_open _ hc, hc, EventSet.join, EventSet.empty]
    · simp [flag_held _ hc]
  unfold flagFaults
  split
  · next h0 =>
    have hid := each_id s.channels (fun _ c =>
      if s.startFaults ≠ 0 ∧ c.resetHeld = false then { c with flags := { c.flags with store := true } } else c)
      fun _ => if_neg fun h => h.1 h0
    rw [hid]
  · next h0 => simp [State.raise, hflag, h0]

theorem recomputeAll_stations (s : State) : (recomputeAll s).stations = s.stations := by rw [recomputeAll_eq]
theorem recomputeAll_outputs (s : State) : (recomputeAll s).outputs = s.outputs := by rw [recomputeAll_eq]
theorem recomputeAll_channels (s : State) : (recomputeAll s).channels = s.channels := by rw [recomputeAll_eq]
theorem recomputeAll_startFaults (s : State) : (recomputeAll s).startFaults = s.startFaults := by
  rw [recomputeAll_eq]

/-! ### The state after the scan (R92) -/

/-- An unenrolled station is restored idle. -/
theorem restoreStation_idle (m : SlotMap Entry) (st : StationNo) {p : StationPersist} (h : p.enrolled = false) :
    restoreStation m st p = ⟨p, none, none, false, false, false, [], false⟩ := by
  simp [restoreStation, h, StationRec.idle]

/-- An enrolled station is restored with its timer started and its list rebuilt (R119, R100). -/
theorem restoreStation_enrolled (m : SlotMap Entry) (st : StationNo) {p : StationPersist} (h : p.enrolled = true) :
    restoreStation m st p =
      { persist := p, holder := none, timer := some (p.window * 1000), stale := false, digestSeen := false,
        pending := false
        list := ((damagedParams m st p.format).take 8).map fun x => .param x .damaged none
        overflow := decide (8 < (damagedParams m st p.format).length) } := by
  rw [restoreStation, if_pos h]
  rfl

theorem loadArray_stations (w : ScanWrites) (s : State) : (loadArray w s).stations =
    each s.array.stations fun st r => restoreStation (partnerPass s.slots) st (r.load .delivery) := by
  simp only [loadArray]
theorem loadArray_sections (w : ScanWrites) (s : State) : (loadArray w s).sections =
    each s.array.sections fun _ r => ⟨r.load .delivery, .steady⟩ := by
  simp only [loadArray]
theorem loadArray_outputs (w : ScanWrites) (s : State) : (loadArray w s).outputs = s.outputs := by
  simp only [loadArray]
theorem loadArray_channels (w : ScanWrites) (s : State) : (loadArray w s).channels = s.channels := by
  simp only [loadArray]

/-- No section is CHANGING when the records are loaded. -/
theorem loadArray_changing (w : ScanWrites) (s : State) (sec : SectionNo) : (loadArray w s).changing sec = false := by
  rw [State.changing, loadArray_sections, sel_each]
  rfl

/-- START_UP_SCAN_END in a scan whose outputs are in AUTO (R92): the records loaded, the sections recomputed, and the
module opened. -/
theorem exec_startUpScanEnd (w : ScanWrites) {s : State} (hphase : s.phase = .scanning)
    (hauto : ∀ sec, (sel s.outputs sec).mode = .auto) :
    exec (.startUpScanEnd w) s = .next
      { recomputeAll (loadArray w s) with
        phase := .running
        degraded := false
        channels := each s.channels fun _ c =>
          if (loadArray w s).startFaults ≠ 0 ∧ c.resetHeld = false then
            { c with flags := { c.flags with store := true } }
          else c } := by
  have hexec : exec (.startUpScanEnd w) s =
      .next (if s.phase = .scanning then flagFaults (openModule (recomputeAll (loadArray w s))) else s) := rfl
  have hmode : ∀ sec, (sel (recomputeAll (loadArray w s)).outputs sec).mode = .auto := fun sec => by
    rw [recomputeAll_outputs, loadArray_outputs, hauto]
  have hidle : ∀ st, derivedState (sel (recomputeAll (loadArray w s)).stations st) ≠ .conforming := fun st => by
    rw [recomputeAll_stations, loadArray_stations, sel_each]
    exact derivedState_ne_conforming (restoreStation_digestSeen _ _ _)
  rw [hexec, if_pos hphase, openModule_quiet hmode hidle, flagFaults_eq]
  simp only [recomputeAll_startFaults, recomputeAll_channels, loadArray_channels]

/-- Stations as the statement lists them are those that the scan restores. -/
theorem stations_restored {a : NvArray} {m : SlotMap Entry} {stations : Bank 32 StationRec}
    (hidle : ∀ st p, sel a.stations st = .valid p → p.enrolled = false →
      sel stations st = ⟨p, none, none, false, false, false, [], false⟩)
    (henrolled : ∀ st p, sel a.stations st = .valid p → p.enrolled = true →
      sel stations st =
        { persist := p, holder := none, timer := some (p.window * 1000), stale := false, digestSeen := false,
          pending := false
          list := ((damagedParams m st p.format).take 8).map fun x => .param x .damaged none
          overflow := decide (8 < (damagedParams m st p.format).length) })
    (hfailed : ∀ st, sel a.stations st = .failed →
      sel stations st = ⟨⟨false, 0, 10, 1⟩, none, none, false, false, false, [], false⟩) :
    stations = each a.stations fun st r => restoreStation m st (r.load .delivery) := by
  refine bank_ext fun st => ?_
  rw [sel_each]
  cases hr : sel a.stations st with
  | failed => exact (hfailed st hr).trans (restoreStation_idle m st rfl).symm
  | valid p =>
    cases he : p.enrolled with
    | false => exact (hidle st p hr he).trans (restoreStation_idle m st he).symm
    | true => exact (henrolled st p hr he).trans (restoreStation_enrolled m st he).symm

/-- Settles O55: the state is the one `exec_startUpScanEnd` gives for the records as loaded, each section's record is read
off its recompute, and the array off the scan's own writes slot by slot and record by record. -/
theorem scanEnd : Obligations.ScanEnd := by
  refine ⟨?_, ?_, fun m hm _ => passFaults_eq hm, recordFaults_eq⟩
  · intro w s u v m arr stations sections hphase hauto hm harr hidle henrolled hfailed hsections hu hv
    have hstations := stations_restored hidle henrolled hfailed
    have hrecords : (each sections fun _ p => (⟨p, .steady⟩ : SectionRec)) =
        each s.array.sections fun _ r => ⟨r.load .delivery, .steady⟩ := by
      refine bank_ext fun sec => ?_
      rw [sel_each, sel_each, hsections sec]
      cases sel s.array.sections sec <;> rfl
    have hload : u = loadArray w s := by
      rw [hu, hrecords, hstations, harr, hm, loadArray]
      cases s.array.moduleRec <;> rfl
    have hust : u.stations = stations := by rw [hu]
    have husec : ∀ sec, (sel u.sections sec).persist = sel sections sec := fun sec => by rw [hu, sel_each]
    have hsteady : ∀ sec, u.changing sec = false := fun sec => hload ▸ loadArray_changing w s sec
    have hall : v = recomputeAll u := hv.trans (recomputeAll_in_order u).symm
    have hvsec : ∀ sec, sel v.sections sec = u.recomputed sec := fun sec => hall ▸ sel_recomputeAll u sec
    refine ⟨?_, fun sec => ⟨fun h => ?_, fun f hne h => ?_, fun st hst st' hst' h => ?_⟩, ?_⟩
    · rw [exec_startUpScanEnd w hphase hauto, ← hload, ← hall]
    · rw [hvsec, recomputed_empty (hsteady sec) h, husec]
    · rw [hvsec, recomputed_uniform (hsteady sec) hne (hust ▸ h), husec]
    · rw [hvsec, recomputed_split (hsteady sec) hst hst' (hust ▸ h), husec]
    · rw [hall]
      exact recomputeAll_eq u
  · intro w m a ha
    refine ⟨fun n => ⟨slot_scanWrites_kept ha, fun hhead hfree => ?_⟩, fun st => ?_, fun sec => ?_, ?_⟩
    · rw [slot_scanWrites_freed ha hhead hfree, scanLeft]
      cases (w.find? fun x => x.1 == .slot n).map Prod.snd with
      | none => rfl
      | some l => cases l <;> rfl
    · simp only [scanWrites, sel_each]
      cases sel a.stations st with
      | valid p => rfl
      | failed => exact replaceRecord_failed w (.station st) _
    · simp only [scanWrites, sel_each]
      cases sel a.sections sec with
      | valid p => rfl
      | failed => exact replaceRecord_failed w (.sect sec) _
    · simp only [scanWrites]
      cases a.moduleRec with
      | valid p => rfl
      | failed => exact replaceRecord_failed w .moduleRec _

end Sys2Proof.Machine
end

section
/-! SUPPORT. Open proposals by their numbers, the room that their CREATEs hold, and the slot writes that are formed for
changes that fit the table (R52, R68, R79). -/

namespace Sys2Proof.Machine

/-! ### A proposal and its number -/

/-- R52: no two open proposals have one number. -/
def NumbersUnique (l : List Proposal) : Prop := (l.map Proposal.number).Nodup

theorem NumbersUnique.eq {l : List Proposal} (h : NumbersUnique l) {p q : Proposal} (hp : p ∈ l) (hq : q ∈ l)
    (hn : p.number = q.number) : p = q :=
  List.inj_on_of_nodup_map h hp hq hn

theorem mem_of_proposal {s : State} {n : Nat} {p : Proposal} (h : s.proposal n = some p) :
    p ∈ s.proposals ∧ p.number = n :=
  ⟨List.mem_of_find?_eq_some h, by simpa using List.find?_some h⟩

theorem proposal_of_mem {s : State} {p : Proposal} (h : NumbersUnique s.proposals) (hp : p ∈ s.proposals) :
    s.proposal p.number = some p := by
  cases hf : s.proposal p.number with
  | none => exact absurd (List.find?_eq_none.1 hf p hp) (by simp)
  | some q =>
    obtain ⟨hq, hn⟩ := mem_of_proposal hf
    rw [h.eq hq hp hn]

/-! ### The room that CREATEs hold -/

/-- CREATE changes held by the WRITING ones of some proposals (R68). -/
def writingCreatesOf (l : List Proposal) : Nat := ((l.filter Proposal.isWriting).map fun p => createCount p.changes).sum

theorem writingCreates_eq (s : State) : s.writingCreates = writingCreatesOf s.proposals := rfl

@[simp] theorem writingCreatesOf_nil : writingCreatesOf [] = 0 := rfl

theorem writingCreatesOf_cons (p : Proposal) (l : List Proposal) :
    writingCreatesOf (p :: l) = (if p.isWriting then createCount p.changes else 0) + writingCreatesOf l := by
  unfold writingCreatesOf
  cases h : p.isWriting <;> simp [h]

theorem filter_number_of_notMem {l : List Proposal} {n : Nat} (h : ∀ q ∈ l, q.number ≠ n) :
    (l.filter fun q => q.number != n) = l :=
  List.filter_eq_self.2 fun q hq => by simpa using h q hq

/-- A WRITING proposal's CREATEs are those held by it and those held by the others. -/
theorem writingCreatesOf_remove {l : List Proposal} (h : NumbersUnique l) {p : Proposal} (hp : p ∈ l)
    (hw : p.isWriting = true) :
    writingCreatesOf l = createCount p.changes + writingCreatesOf (l.filter fun q => q.number != p.number) := by
  induction l with
  | nil => cases hp
  | cons x l ih =>
    obtain ⟨hx, hl⟩ := List.nodup_cons.1 h
    have hne : ∀ q ∈ l, q.number ≠ x.number := fun q hq he => hx (List.mem_map.2 ⟨q, hq, he⟩)
    rcases List.mem_cons.1 hp with rfl | hp
    · rw [List.filter_cons_of_neg (by simp), filter_number_of_notMem hne, writingCreatesOf_cons, if_pos hw]
    · rw [List.filter_cons_of_pos (by simpa using (hne p hp).symm), writingCreatesOf_cons, writingCreatesOf_cons,
        ih hl hp]
      omega

/-- A proposal made WRITING holds its CREATEs too. -/
theorem writingCreatesOf_mark {l : List Proposal} (h : NumbersUnique l) {p : Proposal} (hp : p ∈ l)
    (hw : p.isWriting = false) (ch : ChannelNo) :
    writingCreatesOf (l.map fun q => if q.number = p.number then { q with state := .writing ch } else q) =
      createCount p.changes + writingCreatesOf l := by
  induction l with
  | nil => cases hp
  | cons x l ih =>
    obtain ⟨hx, hl⟩ := List.nodup_cons.1 h
    have hne : ∀ q ∈ l, q.number ≠ x.number := fun q hq he => hx (List.mem_map.2 ⟨q, hq, he⟩)
    rw [List.map_cons, writingCreatesOf_cons, writingCreatesOf_cons]
    rcases List.mem_cons.1 hp with rfl | hp
    · have hrest : (l.map fun q => if q.number = p.number then { q with state := .writing ch } else q) = l :=
        (List.map_congr_left fun q hq => if_neg (hne q hq)).trans (List.map_id l)
      rw [hrest, if_pos rfl, hw]
      simp [Proposal.isWriting]
    · rw [ih hl hp, if_neg (hne p hp).symm]
      omega

/-! ### The slot writes that are formed -/

/-- Fewer slots taken than there are: one is FREE. -/
theorem exists_lowestFree {taken : List Nat} {fuel : Nat} (n : Nat) (h : taken.length < fuel) :
    ∃ k, lowestFree taken fuel n = some k := by
  by_contra hnone
  have hall : ∀ fuel n, lowestFree taken fuel n = none → List.range' n fuel ⊆ taken := by
    intro fuel
    induction fuel with
    | zero => simp
    | succ fuel ih =>
      intro n hn
      rw [lowestFree] at hn
      split at hn
      · next ht =>
        rw [List.range'_succ]
        exact List.cons_subset.2 ⟨by simpa using ht, ih _ hn⟩
      · cases hn
  have hsub := hall fuel n (Option.eq_none_iff_forall_ne_some.2 fun k hk => hnone ⟨k, hk⟩)
  have := ((List.nodup_range' (step := 1)).subperm hsub).length_le
  simp at this
  omega

/-- Changes other than CREATEs name entries of the table. -/
theorem ChangesFit.stands {m : SlotMap Entry} {l : List Change} (h : ChangesFit m l) :
    ∀ c ∈ l, c.kind ≠ .create → findEntry m c.key ≠ none := by
  intro c hc hk hf
  exact hk ((h c hc).1.2 (by simp [entryAt, hf]))

theorem createCount_cons (c : Change) (l : List Change) :
    createCount (c :: l) = (if c.kind = .create then 1 else 0) + createCount l := by
  unfold createCount
  cases h : c.kind <;> simp [h, Nat.add_comm]

/-- R79: where the entries are there and the room is, every change has its slot write. -/
theorem exists_planSlots {m : SlotMap Entry} {all l : List Change} {taken : List Nat}
    (hl : ∀ c ∈ l, c.kind ≠ .create → findEntry m c.key ≠ none)
    (hroom : taken.length + createCount l ≤ Config.slotCount) :
    ∃ plans, planSlots m all taken l = some plans ∧ plans.length = l.length := by
  induction l generalizing taken with
  | nil => exact ⟨[], rfl, rfl⟩
  | cons c l ih =>
    have hrest := fun d hd => hl d (List.mem_cons_of_mem c hd)
    have hc := hl c List.mem_cons_self
    rw [createCount_cons] at hroom
    cases c with
    | set k x v low high t =>
      obtain ⟨⟨n, e⟩, he⟩ := Option.ne_none_iff_exists'.1 (hc (by simp [Change.kind]))
      obtain ⟨plans, hp, hlen⟩ := ih hrest (taken := taken) (by simpa [Change.kind] using hroom)
      exact ⟨_, by simp only [planSlots, show findEntry m k = _ from he, hp]; rfl, by simp [hlen]⟩
    | create k v low high t cls q =>
      have hroom : taken.length + (1 + createCount l) ≤ Config.slotCount := by simpa [Change.kind] using hroom
      obtain ⟨n, hn⟩ := exists_lowestFree (taken := taken) (fuel := Config.slotCount) 0 (by omega)
      obtain ⟨plans, hp, hlen⟩ := ih hrest (taken := n :: taken) (by rw [List.length_cons]; omega)
      exact ⟨_, by simp only [planSlots, hn, hp]; rfl, by simp [hlen]⟩
    | retire k x =>
      obtain ⟨⟨n, e⟩, he⟩ := Option.ne_none_iff_exists'.1 (hc (by simp [Change.kind]))
      obtain ⟨plans, hp, hlen⟩ := ih hrest (taken := taken) (by simpa [Change.kind] using hroom)
      exact ⟨_, by simp only [planSlots, show findEntry m k = _ from he, hp]; rfl, by simp [hlen]⟩

end Sys2Proof.Machine
end

section
/-! SUPPORT. The law of the write queue (R74) and what it rests on, through the taking and the joining of items, approval,
removal, submission, and the ticking of the timers. -/

namespace Sys2Proof.Machine

variable {s t : State}

/-- R74 without its clause about the time before READY: each WRITING proposal's item is queued or being written, and not
both, and no item is queued twice. -/
def QueueLaw (s : State) : Prop :=
  s.queue.Nodup ∧
    (∀ ch n, (WriteItem.proposal ch n ∈ s.queue ∨ BeingWritten s ch n) ↔
      ∃ p ∈ s.proposals, p.number = n ∧ p.state = .writing ch) ∧
    ∀ ch n, ¬ (WriteItem.proposal ch n ∈ s.queue ∧ BeingWritten s ch n)

/-- As the module is before READY: nothing open, queued or being written, every section STEADY (R87, R88). -/
def NothingOpen (s : State) : Prop :=
  s.proposals = [] ∧ s.queue = [] ∧ s.writer = none ∧ ∀ sec, (sel s.sections sec).state = .steady

theorem writingLaw_iff : WritingLaw s ↔ QueueLaw s ∧ (s.phase ≠ .running → NothingOpen s) := by
  unfold WritingLaw QueueLaw NothingOpen
  tauto

/-- What R74 rests on from event to event: the numbers, the queue, the changes and plans that fit the table, and once
READY is set its partners. -/
structure WriterLaws (s : State) : Prop where
  numbers : NumbersUnique s.proposals
  partners : s.phase = .running → PartnersLaw s.slots
  queued : QueueLaw s
  work : WorkLaw s

theorem queueLaw_congr (hp : t.proposals = s.proposals) (hq : t.queue = s.queue) (hw : t.writer = s.writer) :
    QueueLaw t ↔ QueueLaw s := by
  simp only [QueueLaw, BeingWritten, hp, hq, hw]

theorem workLaw_congr (hp : t.proposals = s.proposals) (hs : t.slots = s.slots) (ha : t.array = s.array)
    (hw : t.writer = s.writer) : WorkLaw t ↔ WorkLaw s := by
  simp only [WorkLaw, writingCreates_eq, hp, hs, ha, hw]

theorem WriterLaws.congr (h : WriterLaws s) (hph : t.phase = s.phase) (hp : t.proposals = s.proposals)
    (hs : t.slots = s.slots) (ha : t.array = s.array) (hq : t.queue = s.queue) (hw : t.writer = s.writer) :
    WriterLaws t where
  numbers := hp ▸ h.numbers
  partners hr := hs ▸ h.partners (hph ▸ hr)
  queued := (queueLaw_congr hp hq hw).2 h.queued
  work := (workLaw_congr hp hs ha hw).2 h.work

/-! ### The writer takes an item -/

/-- The item of a queued proposal has its slot writes, one for each change. -/
theorem WriterLaws.formJob_proposal (h : WriterLaws s) {ch : ChannelNo} {n : Nat}
    (hq : WriteItem.proposal ch n ∈ s.queue) : ∃ p ∈ s.proposals, p.number = n ∧ ∃ plans,
      planSlots s.slots p.changes (s.slots.map Prod.fst) p.changes = some plans ∧ 0 < plans.length ∧
      formJob s (.proposal ch n) = some (.proposal ch n plans []) := by
  obtain ⟨-, hopen, -⟩ := h.queued
  obtain ⟨p, hp, rfl, hstate⟩ := (hopen ch n).1 (.inl hq)
  obtain ⟨hfit, hroom, -, -⟩ := h.work
  obtain ⟨hne, hfit⟩ := hfit p hp
  have hcount := writingCreatesOf_remove h.numbers hp (isWriting_iff.2 ⟨ch, hstate⟩)
  rw [writingCreates_eq] at hroom
  obtain ⟨plans, hplans, hlen⟩ := exists_planSlots (all := p.changes) (taken := s.slots.map Prod.fst) hfit.stands
    (by rw [List.length_map]; simp only [Config.slotCount]; omega)
  refine ⟨p, hp, rfl, plans, hplans, hlen ▸ List.length_pos_iff.2 hne, ?_⟩
  have hfind : (s.proposals.find? fun q => q.number == p.number) = some p := proposal_of_mem h.numbers hp
  simp only [formJob, hfind, hplans, Option.map_some]

/-- A queued item's job is a proposal's exactly where the item is. -/
theorem WriterLaws.formJob_iff (h : WriterLaws s) {i : WriteItem} (hi : i ∈ s.queue) (ch : ChannelNo) (n : Nat) :
    (∃ plans results, formJob s i = some (.proposal ch n plans results)) ↔ i = .proposal ch n := by
  cases i with
  | moduleRec => simp [formJob]
  | sect k => simp [formJob]
  | station k => simp [formJob]
  | proposal ch' n' =>
    obtain ⟨p, -, -, plans, -, -, hjob⟩ := h.formJob_proposal hi
    rw [hjob]
    simp

theorem WriterLaws.takeItem (h : WriterLaws s) : WriterLaws (takeItem s) := by
  rcases takeItem_spec s with e | ⟨i, hi, hw, e⟩
  · rwa [e]
  · rw [e]
    obtain ⟨hnodup, hopen, -⟩ := h.queued
    obtain ⟨hfit, hroom, -, -⟩ := h.work
    have hfree : ∀ ch n, ¬ BeingWritten s ch n := by
      rintro ch n ⟨plans, results, hb⟩
      rw [hw] at hb
      cases hb
    have hmem : ∀ ch n, WriteItem.proposal ch n ∈ s.queue.erase i ↔
        WriteItem.proposal ch n ≠ i ∧ WriteItem.proposal ch n ∈ s.queue := fun ch n => hnodup.mem_erase_iff
    refine ⟨h.numbers, h.partners, ⟨hnodup.erase i, fun ch n => ?_, fun ch n => ?_⟩, hfit, hroom,
      fun ch n plans results hjob => ?_, fun ch n plans results p hjob hp => ?_⟩
    · refine Iff.trans ?_ (hopen ch n)
      rw [or_iff_left (hfree ch n)]
      unfold BeingWritten
      rw [h.formJob_iff hi, hmem]
      constructor
      · rintro (⟨-, hq⟩ | rfl)
        · exact hq
        · exact hi
      · exact fun hq => (em (i = .proposal ch n)).elim .inr fun hne => .inl ⟨Ne.symm hne, hq⟩
    · rintro ⟨hq, hb⟩
      exact ((hmem ch n).1 hq).1 ((h.formJob_iff hi ch n).1 hb).symm
    all_goals
      obtain rfl := (h.formJob_iff hi ch n).1 ⟨plans, results, hjob⟩
      obtain ⟨q, hq, hn, plans', hplans, hpos, hjob'⟩ := h.formJob_proposal hi
      obtain ⟨-, -, rfl, rfl⟩ : ch = ch ∧ n = n ∧ plans' = plans ∧ [] = results := by
        simpa using hjob'.symm.trans hjob
    · exact ⟨hpos, q, hq, hn, hplans⟩
    · simp at hp

/-- A record item joins the queue (R75, R76). -/
theorem WriterLaws.enqueue (h : WriterLaws s) {i : WriteItem} (hrec : ∀ ch n, i ≠ .proposal ch n) :
    WriterLaws (enqueue i s) := by
  by_cases hi : i ∈ s.queue
  · rwa [enqueue_queued hi]
  · rw [enqueue_new hi]
    obtain ⟨hnodup, hopen, hboth⟩ := h.queued
    have hmem : ∀ ch n, WriteItem.proposal ch n ∈ s.queue ++ [i] ↔ WriteItem.proposal ch n ∈ s.queue := by
      intro ch n
      simp [(hrec ch n).symm]
    refine WriterLaws.takeItem ⟨h.numbers, h.partners, ⟨?_, fun ch n => ?_, fun ch n => ?_⟩, h.work⟩
    · simpa using List.Nodup.concat hi hnodup
    · rw [hmem]; exact hopen ch n
    · rw [hmem]; exact hboth ch n

/-- An item being written that is a record's is written, and the writer is free again (R78). -/
theorem WriterLaws.endRecord (h : WriterLaws s) {j : Job} (hw : s.writer = some j) (hj : j.isRecord = true)
    (o : RecordOutcome) : WriterLaws (endRecord o j s) := by
  obtain ⟨hnodup, hopen, -⟩ := h.queued
  obtain ⟨hfit, hroom, -, -⟩ := h.work
  have hfree : ∀ ch n, ¬ BeingWritten s ch n := by
    rintro ch n ⟨plans, results, hb⟩
    obtain rfl := Option.some.inj (hw.symm.trans hb)
    cases hj
  have hfree' : ∀ ch n, ¬ BeingWritten (Machine.endRecord o j s) ch n := by
    rintro ch n ⟨plans, results, hb⟩
    cases hb
  refine ⟨h.numbers, h.partners, ⟨hnodup, fun ch n => ?_, fun ch n hb => hfree' ch n hb.2⟩, hfit, hroom, nofun, nofun⟩
  refine Iff.trans ?_ (hopen ch n)
  rw [or_iff_left (hfree ch n), or_iff_left (hfree' ch n)]
  rfl

/-! ### Approval, removal, submission, and a millisecond -/

/-- Of an AWAITING proposal no item is queued or being written. -/
theorem WriterLaws.not_queued (h : WriterLaws s) {p : Proposal} (hp : p ∈ s.proposals) (hw : p.isWriting = false)
    (ch : ChannelNo) : ¬ (WriteItem.proposal ch p.number ∈ s.queue ∨ BeingWritten s ch p.number) := by
  obtain ⟨-, hopen, -⟩ := h.queued
  rw [hopen]
  rintro ⟨q, hq, hn, hstate⟩
  obtain rfl := h.numbers.eq hq hp hn
  rw [isWriting_iff.2 ⟨ch, hstate⟩] at hw
  cases hw

/-- The state of an open proposal after an approval of proposal `n` on `ch` (R69). -/
def approved (n : Nat) (ch : ChannelNo) (p : Proposal) : Proposal :=
  if p.number = n then { p with state := .writing ch } else p

theorem approved_number (n : Nat) (ch : ChannelNo) (p : Proposal) : (approved n ch p).number = p.number := by
  unfold approved; split <;> rfl
theorem approved_stamp (n : Nat) (ch : ChannelNo) (p : Proposal) : (approved n ch p).stamp = p.stamp := by
  unfold approved; split <;> rfl
theorem approved_changes (n : Nat) (ch : ChannelNo) (p : Proposal) : (approved n ch p).changes = p.changes := by
  unfold approved; split <;> rfl

theorem approved_state (n : Nat) (ch : ChannelNo) (p : Proposal) :
    (approved n ch p).state = if p.number = n then .writing ch else p.state := by
  unfold approved; split <;> rfl

theorem markWriting_proposals_eq (n : Nat) (ch : ChannelNo) (s : State) :
    (markWriting n ch s).proposals = s.proposals.map (approved n ch) := rfl

/-- R69: a proposal approved with room for its CREATEs is WRITING, and its item is queued. -/
theorem WriterLaws.approve (h : WriterLaws s) {p : Proposal} (hp : p ∈ s.proposals) (hw : p.isWriting = false)
    (ch : ChannelNo) (hroom : createCount p.changes ≤ s.approvalRoom) :
    WriterLaws (Machine.enqueue (.proposal ch p.number) (markWriting p.number ch s)) := by
  obtain ⟨hnodup, hopen, hboth⟩ := h.queued
  obtain ⟨hfit, hroom', hplans, hretired⟩ := h.work
  have hnot := h.not_queued hp hw
  have hnew : WriteItem.proposal ch p.number ∉ (markWriting p.number ch s).queue := fun hq => hnot ch (.inl hq)
  rw [enqueue_new hnew]
  refine WriterLaws.takeItem ⟨?_, h.partners, ⟨?_, fun ch' n => ?_, fun ch' n => ?_⟩, fun q hq => ?_, ?_,
    fun ch' n plans results hj => ?_, hretired⟩
  · simpa only [NumbersUnique, markWriting_proposals_eq, List.map_map, Function.comp_def, approved_number]
      using h.numbers
  · simpa using List.Nodup.concat hnew hnodup
  · have hb : BeingWritten { markWriting p.number ch s with
        queue := (markWriting p.number ch s).queue ++ [.proposal ch p.number] } ch' n ↔ BeingWritten s ch' n := Iff.rfl
    have hq : WriteItem.proposal ch' n ∈ s.queue ++ [WriteItem.proposal ch p.number] ↔
        WriteItem.proposal ch' n ∈ s.queue ∨ (ch' = ch ∧ n = p.number) := by simp
    rw [hb, markWriting_queue, hq, or_right_comm, hopen]
    clear hb hq
    simp only [markWriting_proposals_eq, List.mem_map, exists_exists_and_eq_and, approved_number, approved_state]
    constructor
    · rintro (⟨q, hq, rfl, hstate⟩ | ⟨rfl, rfl⟩)
      · refine ⟨q, hq, rfl, ?_⟩
        split
        · next hn => exact absurd ((hopen ch' q.number).2 ⟨q, hq, rfl, hstate⟩) (hn ▸ hnot ch')
        · exact hstate
      · exact ⟨p, hp, rfl, if_pos rfl⟩
    · rintro ⟨q, hq, rfl, hstate⟩
      split at hstate
      · next hn => cases hstate; exact .inr ⟨rfl, hn⟩
      · exact .inl ⟨q, hq, rfl, hstate⟩
  · rintro ⟨hq, hb⟩
    rcases List.mem_append.1 hq with hq | hq
    · exact hboth ch' n ⟨hq, hb⟩
    · obtain ⟨rfl, rfl⟩ : ch' = ch ∧ n = p.number := by simpa using hq
      exact hnot ch' (.inr hb)
  · obtain ⟨x, hx, rfl⟩ : ∃ x ∈ s.proposals, approved p.number ch x = q := List.mem_map.1 hq
    rw [approved_changes]
    exact hfit x hx
  · have hmark := writingCreatesOf_mark h.numbers hp hw ch
    simp only [State.approvalRoom, State.freeSlots, State.entriesInUse, Config.slotCount] at hroom
    rw [writingCreates_eq] at hroom' hroom ⊢
    show s.slots.length + writingCreatesOf (s.proposals.map _) ≤ 2048
    rw [hmark]
    omega
  · obtain ⟨hlen, q, hq, hn, hplan⟩ := hplans ch' n plans results hj
    exact ⟨hlen, approved p.number ch q, List.mem_map_of_mem hq, (approved_number _ _ _).trans hn, by
      rw [approved_changes]; exact hplan⟩

/-- R61: an AWAITING proposal is removed. -/
theorem WriterLaws.remove (h : WriterLaws s) {p : Proposal} (hp : p ∈ s.proposals) (hw : p.isWriting = false) :
    WriterLaws (removeProposal p.number s) := by
  obtain ⟨hnodup, hopen, hboth⟩ := h.queued
  obtain ⟨hfit, hroom, hplans, hretired⟩ := h.work
  have hmem : ∀ {q}, q ∈ s.proposals.filter (fun q => q.number != p.number) ↔ q ∈ s.proposals ∧ q.number ≠ p.number := by
    simp
  have hkept : ∀ ch n, (∃ q ∈ s.proposals, q.number = n ∧ q.state = .writing ch) →
      ∃ q ∈ (removeProposal p.number s).proposals, q.number = n ∧ q.state = .writing ch := by
    rintro ch n ⟨q, hq, rfl, hstate⟩
    refine ⟨q, hmem.2 ⟨hq, fun hn => ?_⟩, rfl, hstate⟩
    exact h.not_queued hp hw ch (hn ▸ (hopen ch q.number).2 ⟨q, hq, rfl, hstate⟩)
  refine ⟨h.numbers.sublist (List.filter_sublist.map _), h.partners, ⟨hnodup, fun ch n => ⟨fun hq => ?_, ?_⟩, hboth⟩,
    fun q hq => hfit q (hmem.1 hq).1, ?_, fun ch n plans results hj => ?_, hretired⟩
  · exact hkept ch n ((hopen ch n).1 hq)
  · rintro ⟨q, hq, hn, hstate⟩
    exact (hopen ch n).2 ⟨q, (hmem.1 hq).1, hn, hstate⟩
  · have hle : (removeProposal p.number s).writingCreates ≤ s.writingCreates :=
      ((List.filter_sublist.filter _).map _).sum_le_sum fun _ _ => Nat.zero_le _
    exact Nat.le_trans (Nat.add_le_add_left hle _) hroom
  · obtain ⟨hlen, q, hq, hn, hplan⟩ := hplans ch n plans results hj
    refine ⟨hlen, q, hmem.2 ⟨hq, fun hnp => ?_⟩, hn, hplan⟩
    exact h.not_queued hp hw ch (.inr ⟨plans, results, hnp ▸ hn ▸ hj⟩)

/-- R50: a proposal whose changes fit the table joins the list under a number of its own. -/
theorem WriterLaws.submit (h : WriterLaws s) {ch : ChannelNo} {l : List Change}
    (hnew : ∀ p ∈ s.proposals, p.number ≠ s.newNumber) (hne : l ≠ []) (hfit : ChangesFit s.slots l) :
    WriterLaws (createProposal ch l s) := by
  obtain ⟨hnodup, hopen, hboth⟩ := h.queued
  obtain ⟨hfit', hroom, hplans, hretired⟩ := h.work
  refine ⟨?_, h.partners, ⟨hnodup, fun ch' n => (hopen ch' n).trans ?_, hboth⟩, fun p hp => ?_, ?_,
    fun ch' n plans results hj => ?_, hretired⟩
  · show ((s.proposals ++ [s.newProposal ch l]).map Proposal.number).Nodup
    rw [List.map_append]
    refine List.nodup_append.2 ⟨h.numbers, List.nodup_singleton _, fun a ha b hb => ?_⟩
    obtain ⟨p, hp, rfl⟩ := List.mem_map.1 ha
    rw [List.mem_singleton.1 hb]
    exact hnew p hp
  · show _ ↔ ∃ p ∈ s.proposals ++ [s.newProposal ch l], p.number = n ∧ p.state = .writing ch'
    simp [State.newProposal, or_and_right, exists_or]
  · rcases List.mem_append.1 hp with hp | hp
    · exact hfit' p hp
    · rw [List.mem_singleton.1 hp]
      exact ⟨hne, hfit⟩
  · have hlist : writingCreatesOf (s.proposals ++ [s.newProposal ch l]) = writingCreatesOf s.proposals := by
      simp [writingCreatesOf, State.newProposal, Proposal.isWriting]
    rw [writingCreates_eq] at hroom ⊢
    exact (congrArg (s.slots.length + ·) hlist).trans_le hroom
  · obtain ⟨hlen, q, hq, hrest⟩ := hplans ch' n plans results hj
    exact ⟨hlen, q, List.mem_append_left _ hq, hrest⟩

/-- A proposal after a millisecond: its expiry timer alone differs. -/
def ticked (p : Proposal) : Proposal := { p with state := p.state.tick }

theorem ticked_writing {p : Proposal} {ch : ChannelNo} : (ticked p).state = .writing ch ↔ p.state = .writing ch := by
  unfold ticked ProposalState.tick
  cases p.state <;> simp

theorem ticked_isWriting (p : Proposal) : (ticked p).isWriting = p.isWriting := by
  rw [Bool.eq_iff_iff, isWriting_iff, isWriting_iff]
  simp only [ticked_writing]

@[simp] theorem ticked_changes (p : Proposal) : (ticked p).changes = p.changes := rfl
@[simp] theorem ticked_number (p : Proposal) : (ticked p).number = p.number := rfl

theorem tick_proposals (s : State) : s.tick.proposals = s.proposals.map ticked := rfl

theorem WriterLaws.tick (h : WriterLaws s) : WriterLaws s.tick := by
  obtain ⟨hnodup, hopen, hboth⟩ := h.queued
  obtain ⟨hfit, hroom, hplans, hretired⟩ := h.work
  refine ⟨?_, h.partners, ⟨hnodup, fun ch n => (hopen ch n).trans ?_, hboth⟩, fun p hp => ?_, ?_,
    fun ch n plans results hj => ?_, hretired⟩
  · simpa only [NumbersUnique, tick_proposals, List.map_map, Function.comp_def, ticked_number] using h.numbers
  · simp only [tick_proposals, List.mem_map, exists_exists_and_eq_and, ticked_writing]
    exact Iff.rfl
  · obtain ⟨q, hq, rfl⟩ := List.mem_map.1 hp
    exact hfit q hq
  · have hlist : writingCreatesOf (s.proposals.map ticked) = writingCreatesOf s.proposals := by
      simp only [writingCreatesOf, List.filter_map, List.map_map, Function.comp_def, ticked_isWriting, ticked_changes]
    rw [writingCreates_eq] at hroom ⊢
    exact (congrArg (s.slots.length + ·) hlist).trans_le hroom
  · obtain ⟨hlen, q, hq, hrest⟩ := hplans ch n plans results hj
    exact ⟨hlen, ticked q, List.mem_map_of_mem hq, hrest⟩

end Sys2Proof.Machine
end

section
/-! SUPPORT. The number of a new proposal (R52), and what a draft that passes the checks of submission brings. -/

namespace Sys2Proof.Machine

variable {s : State}

/-! ### The number (R52) -/

theorem numberAfter_eq {n : Nat} (h : n ≤ 255) : numberAfter n = n % 255 + 1 := by
  unfold numberAfter
  split <;> omega

theorem numberAfter_bounds (n : Nat) : 1 ≤ numberAfter n ∧ numberAfter n ≤ 255 := by
  unfold numberAfter
  split <;> omega

theorem freeNumber_bounds (held : List Nat) (fuel n : Nat) :
    1 ≤ freeNumber held fuel n ∧ freeNumber held fuel n ≤ 255 := by
  induction fuel generalizing n with
  | zero => exact numberAfter_bounds n
  | succ fuel ih =>
    rw [freeNumber]
    split
    · exact ih _
    · exact numberAfter_bounds n

theorem newNumber_bounds (s : State) : 1 ≤ s.newNumber ∧ s.newNumber ≤ 255 := freeNumber_bounds _ _ _

/-- R52: the first number after `n`, 255 followed by 1, that is not held, where it comes within the steps. -/
theorem freeNumber_eq {held : List Nat} {fuel n k : Nat} (hn : n ≤ 255) (hk : k ≤ fuel)
    (hheld : ∀ j < k, (n + j) % 255 + 1 ∈ held) (hfree : (n + k) % 255 + 1 ∉ held) :
    freeNumber held fuel n = (n + k) % 255 + 1 := by
  induction fuel generalizing n k with
  | zero =>
    obtain rfl : k = 0 := by omega
    exact numberAfter_eq hn
  | succ fuel ih =>
    rw [freeNumber, numberAfter_eq hn]
    cases k with
    | zero => rw [if_neg (by simpa using hfree)]; rfl
    | succ k =>
      rw [if_pos (by simpa using hheld 0 (Nat.succ_pos k))]
      have hshift : ∀ j, (n % 255 + 1 + j) % 255 = (n + (j + 1)) % 255 := by omega
      rw [ih (k := k) (by omega) (by omega), hshift]
      · exact fun j hj => hshift j ▸ hheld (j + 1) (by omega)
      · exact hshift k ▸ hfree

theorem freeNumber_min (held : List Nat) (fuel n : Nat) : freeNumber held fuel n = freeNumber held fuel (min n 255) := by
  have h : numberAfter n = numberAfter (min n 255) := by
    unfold numberAfter
    split <;> split <;> omega
  cases fuel with
  | zero => exact h
  | succ fuel => rw [freeNumber, freeNumber, h]

/-- With fewer numbers held than steps, one of the first numbers is not held. -/
theorem exists_freeNumber {held : List Nat} (n : Nat) (h : held.length < 16) :
    ∃ k < 16, (n + k) % 255 + 1 ∉ held := by
  by_contra hall
  have hsub : (List.range 16).map (fun k => (n + k) % 255 + 1) ⊆ held := by
    intro x hx
    obtain ⟨k, hk, rfl⟩ := List.mem_map.1 hx
    by_contra hnot
    exact hall ⟨k, List.mem_range.1 hk, hnot⟩
  have hnodup : ((List.range 16).map fun k => (n + k) % 255 + 1).Nodup := by
    refine List.nodup_range.map_on fun j hj k hk he => ?_
    rw [List.mem_range] at hj hk
    omega
  have := (hnodup.subperm hsub).length_le
  rw [List.length_map, List.length_range] at this
  omega

/-- R52: with room in the list, no open proposal holds the new number. -/
theorem newNumber_new (h : s.proposals.length < 16) : ∀ p ∈ s.proposals, p.number ≠ s.newNumber := by
  intro p hp he
  have hex := exists_freeNumber (held := s.proposals.map Proposal.number) (min s.lastNumber 255) (by simpa using h)
  have hfind := Nat.find_spec hex
  have hleast : ∀ j < Nat.find hex, (min s.lastNumber 255 + j) % 255 + 1 ∈ s.proposals.map Proposal.number := by
    intro j hj
    by_contra hnot
    exact Nat.find_min hex hj ⟨by omega, hnot⟩
  have hnew : s.newNumber = (min s.lastNumber 255 + Nat.find hex) % 255 + 1 := by
    rw [State.newNumber, freeNumber_min]
    exact freeNumber_eq (Nat.min_le_right _ _) (Nat.le_of_lt hfind.1) hleast hfind.2
  exact hfind.2 (hnew ▸ he ▸ List.mem_map_of_mem hp)

/-! ### Changes that pass -/

/-- Check 10: the list has room. -/
theorem length_of_submission {role : Role} {l : List Change} (h : submissionChecks s role l = none) :
    s.proposals.length < 16 := by
  rw [submissionChecks_eq] at h
  have hlast : ∀ ns : List Nat, ns.foldr (fun n r => (checkEach (changeCheck s role l n) 0 l).or r)
      ((checkRoom s l).or (checkList s)) = none → checkList s = none := by
    intro ns
    induction ns with
    | nil => exact fun h => (Option.or_eq_none_iff.1 h).2
    | cons n ns ih => exact fun h => ih (Option.or_eq_none_iff.1 h).2
  have hlist := hlast _ h
  unfold checkList at hlist
  split at hlist
  · cases hlist
  · next hlt => simpa [Config.proposalCapacity] using hlt

/-- R46, R47 and R48: changes that pass the checks fit a table whose partners name each other. -/
theorem changesFit_of_submission {role : Role} {l : List Change} (h : submissionChecks s role l = none)
    (hp : PartnersLaw s.slots) : ChangesFit s.slots l := by
  intro c hc
  obtain ⟨hbounds, -, hexists, -, hpartner, -⟩ := submittedChangesInOrder.1 s role l h c hc
  refine ⟨hexists, hbounds, fun q hq => ?_⟩
  obtain ⟨d, hd, hk, hkind, hnamed⟩ := hpartner q hq
  refine ⟨d, hd, hk, hkind, ?_⟩
  by_cases hcreate : c.kind = .create
  · rw [partnerOf_of_create (hkind.trans hcreate), hnamed hcreate]
  · have hentry : ∀ x : Change, x.kind ≠ .create → partnerOf s.slots x = (entryAt s.slots x.key).bind Entry.partner := by
      rintro (_ | _ | _) hx
      · rfl
      · exact absurd rfl hx
      · rfl
    rw [hentry c hcreate, Option.bind_eq_some_iff] at hq
    obtain ⟨e, he, heq⟩ := hq
    obtain ⟨hmem, hkey⟩ := entryAt_some he
    obtain ⟨d', hd', hback, -⟩ := hp e hmem q heq
    rw [hkey] at hd' hback
    rw [hentry d (hkind ▸ hcreate), hk, hd']
    exact hback

/-- R49: no key of changes that pass is in an open proposal. -/
theorem keys_of_submission {role : Role} {l : List Change} (h : submissionChecks s role l = none) :
    ∀ p ∈ s.proposals, ∀ k ∈ keysOf p.changes, k ∉ keysOf l := by
  intro p hp k hk hkl
  obtain ⟨c, hc, rfl⟩ := List.mem_map.1 hkl
  obtain ⟨-, -, -, -, -, hconflict, -⟩ := submittedChangesInOrder.1 s role l h c hc
  exact hconflict p hp hk

end Sys2Proof.Machine
end

section
/-! SUPPORT. What every command but the store's own keeps: the laws of the proposal list and of the drafts (R38, R51 to
R53), and what R74 rests on. -/

namespace Sys2Proof.Machine

/-- From `s` to `t` the laws of the proposal list, of the drafts and of the writer are kept. -/
structure Keeps (s t : State) : Prop where
  proposals : ProposalLaw s → DraftLaw s → ProposalLaw t
  drafts : DraftLaw s → DraftLaw t
  writer : WriterLaws s → WriterLaws t

/-! ### Drafts -/

/-- The draft on a channel, if there is one, is as R38 has it. -/
def Channel.DraftOk (c : Channel) : Prop := ∀ l, c.draft = some l → l.length ≤ 2 ∧ (keysOf l).Nodup

theorem draftLaw_iff {s : State} : DraftLaw s ↔ ∀ ch, (sel s.channels ch).DraftOk := Iff.rfl

theorem Channel.DraftOk.of_draft {c c' : Channel} (h : c.DraftOk) (hd : c'.draft = c.draft ∨ c'.draft = none) :
    c'.DraftOk := by
  intro l hl
  rcases hd with hd | hd
  · exact h l (hd ▸ hl)
  · rw [hd] at hl; cases hl

theorem draftLaw_onChannel {s : State} {ch : ChannelNo} {f : Channel → Channel} (h : DraftLaw s)
    (hf : (f (sel s.channels ch)).DraftOk) : DraftLaw (s.onChannel ch f) := by
  intro c
  rw [onChannel_channels, sel_upd]
  split
  · exact hf
  · exact h c

theorem draftLaw_congr {s t : State} (h : t.channels = s.channels) : DraftLaw t ↔ DraftLaw s := by
  simp only [DraftLaw, h]

theorem flag_draft (c : Channel) (e : EventSet) : (c.flag e).draft = c.draft := by
  unfold Channel.flag; split <;> rfl

/-! ### The list -/

theorem proposalLaw_congr {s t : State} (hp : t.proposals = s.proposals) (hl : t.lastNumber = s.lastNumber)
    (hn : t.nextStamp = s.nextStamp) : ProposalLaw t ↔ ProposalLaw s := by
  simp only [ProposalLaw, hp, hl, hn]

/-- The law of the list is one of its proposals' numbers, stamps and changes. -/
theorem proposalLaw_map {s t : State} {f : Proposal → Proposal} (h : ProposalLaw s)
    (hp : t.proposals = s.proposals.map f) (hl : t.lastNumber = s.lastNumber) (hn : t.nextStamp = s.nextStamp)
    (hf : ∀ p, (f p).number = p.number ∧ (f p).stamp = p.stamp ∧ (f p).changes = p.changes) : ProposalLaw t := by
  unfold ProposalLaw at h ⊢
  simpa only [hp, hl, hn, List.length_map, List.map_map, List.forall_mem_map, List.flatMap_map, Function.comp_def,
    (hf _).1, (hf _).2.1, (hf _).2.2] using h

theorem proposalLaw_sublist {s t : State} (h : ProposalLaw s) (hp : List.Sublist t.proposals s.proposals)
    (hl : t.lastNumber = s.lastNumber) (hn : t.nextStamp = s.nextStamp) : ProposalLaw t := by
  obtain ⟨hlen, hnumbers, hbounds, hstamps, hkeys, hlast⟩ := h
  refine ⟨hp.length_le.trans hlen, hnumbers.sublist (hp.map _), fun p hm => ?_, hstamps.sublist (hp.map _),
    hkeys.sublist (hp.flatMap _), hl ▸ hlast⟩
  rw [hn]
  exact hbounds p (hp.subset hm)

theorem proposalLaw_submit {s : State} {ch : ChannelNo} {l : List Change} (h : ProposalLaw s)
    (hd : (keysOf l).Nodup) (hchecks : submissionChecks s (s.role ch) l = none) :
    ProposalLaw (createProposal ch l s) := by
  obtain ⟨-, hnumbers, hbounds, hstamps, hkeys, -⟩ := h
  have hlen := length_of_submission hchecks
  have hnew := newNumber_new hlen
  obtain ⟨hlow, hhigh⟩ := newNumber_bounds s
  have hlist : (createProposal ch l s).proposals = s.proposals ++ [s.newProposal ch l] := rfl
  have hstamp : (createProposal ch l s).nextStamp = s.nextStamp + 1 := rfl
  refine ⟨?_, ?_, fun p hp => ?_, ?_, ?_, hhigh⟩
  · rw [hlist, List.length_append, List.length_singleton]
    exact hlen
  · rw [hlist, List.map_append]
    refine List.nodup_append.2 ⟨hnumbers, List.nodup_singleton _, fun a ha b hb => ?_⟩
    obtain ⟨p, hp, rfl⟩ := List.mem_map.1 ha
    rw [List.mem_singleton.1 hb]
    exact hnew p hp
  · rw [hstamp]
    rcases List.mem_append.1 hp with hp | hp
    · obtain ⟨h1, h2, h3⟩ := hbounds p hp
      exact ⟨h1, h2, by omega⟩
    · rw [List.mem_singleton.1 hp]
      exact ⟨hlow, hhigh, Nat.lt_succ_self _⟩
  · rw [hlist, List.map_append]
    refine List.pairwise_append.2 ⟨hstamps, List.pairwise_singleton _ _, fun a ha b hb => ?_⟩
    obtain ⟨p, hp, rfl⟩ := List.mem_map.1 ha
    rw [List.mem_singleton.1 hb]
    exact (hbounds p hp).2.2
  · rw [hlist, List.flatMap_append]
    refine List.nodup_append.2 ⟨hkeys, by simpa [State.newProposal] using hd, fun a ha b hb => ?_⟩
    obtain ⟨p, hp, hk⟩ := List.mem_flatMap.1 ha
    rintro rfl
    exact keys_of_submission hchecks p hp a hk (by simpa [State.newProposal] using hb)

namespace Keeps

variable {s t u : State}

@[refl] theorem refl (s : State) : Keeps s s := ⟨fun h _ => h, id, id⟩

theorem trans (h : Keeps s t) (h' : Keeps t u) : Keeps s u where
  proposals hp hd := h'.proposals (h.proposals hp hd) (h.drafts hd)
  drafts hd := h'.drafts (h.drafts hd)
  writer hw := h'.writer (h.writer hw)

/-- An event that leaves the list, the queue, the writer, the table and the array alone, and keeps the drafts. -/
theorem of_drafts (hd : DraftLaw s → DraftLaw t) (hp : t.proposals = s.proposals := by rfl)
    (hl : t.lastNumber = s.lastNumber := by rfl) (hn : t.nextStamp = s.nextStamp := by rfl)
    (hph : t.phase = s.phase := by rfl) (hs : t.slots = s.slots := by rfl) (ha : t.array = s.array := by rfl)
    (hq : t.queue = s.queue := by rfl) (hw : t.writer = s.writer := by rfl) : Keeps s t where
  proposals h _ := (proposalLaw_congr hp hl hn).2 h
  drafts := hd
  writer h := h.congr hph hp hs ha hq hw

theorem onChannel (ch : ChannelNo) (f : Channel → Channel) (hf : ∀ c, (f c).draft = c.draft ∨ (f c).draft = none) :
    Keeps s (s.onChannel ch f) :=
  of_drafts fun h => draftLaw_onChannel h ((draftLaw_iff.1 h ch).of_draft (hf _))

theorem eachChannel (f : Channel → Channel) (hf : ∀ c, (f c).draft = c.draft ∨ (f c).draft = none)
    (hc : t.channels = each s.channels fun _ c => f c) (h : DraftLaw s) : DraftLaw t := by
  rw [draftLaw_iff, hc]
  intro ch
  rw [sel_each]
  exact Channel.DraftOk.of_draft (h ch) (hf _)

theorem raise (e : EventSet) (s : State) : Keeps s (s.raise e) :=
  of_drafts (eachChannel (fun c => c.flag e) (fun c => .inl (flag_draft c e)) rfl)

theorem settle (b : State) (h : Keeps s t) : Keeps s (settle b t) :=
  h.trans ((of_drafts id : Keeps t (formOutputs b t)).trans (raise _ _))

theorem takeItem (s : State) : Keeps s (takeItem s) where
  proposals h _ := (proposalLaw_congr (by simp) (by simp) (by simp)).2 h
  drafts := (draftLaw_congr (by simp)).2
  writer h := h.takeItem

theorem enqueue (h : Keeps s t) (i : WriteItem) (hi : ∀ ch n, i ≠ .proposal ch n := by simp) :
    Keeps s (enqueue i t) :=
  h.trans
    { proposals := fun h _ => (proposalLaw_congr (by simp) (by simp) (by simp)).2 h
      drafts := (draftLaw_congr (by simp)).2
      writer := fun h => h.enqueue hi }

/-! ### Sections -/

theorem setSectionRec (sec : SectionNo) (r : SectionRec) (h : Keeps s t) : Keeps s (t.setSectionRec sec r) :=
  h.trans (of_drafts id)

theorem recompute (sec : SectionNo) (h : Keeps s t) : Keeps s (recompute sec t) := by
  have hsteady : ∀ f, Keeps s (steadyOn sec f t) := by
    intro f
    unfold steadyOn
    dsimp only
    split
    · exact h.setSectionRec sec _
    · exact (h.setSectionRec sec _).enqueue _
  unfold Machine.recompute
  split
  · exact h
  · split
    · exact hsteady _
    · split
      · exact hsteady _
      · exact h.setSectionRec sec _

theorem endChangeover (sec : SectionNo) (h : Keeps s t) : Keeps s (endChangeover sec t) := by
  have hclear : Keeps t (clearPending sec t) := of_drafts ((draftLaw_congr (by simp)).2)
    (by simp) (by simp) (by simp) (by simp) (by simp) (by simp) (by simp) (by simp)
  unfold Machine.endChangeover
  dsimp only
  exact ((h.trans hclear).setSectionRec sec _).recompute sec

theorem adoptionNotice (sec : SectionNo) (h : Keeps s t) : Keeps s (adoptionNotice sec t) := by
  unfold Machine.adoptionNotice
  split
  · exact h.endChangeover sec
  · exact h

theorem beginChangeover (sec : SectionNo) (f : FormatNo) (h : Keeps s t) : Keeps s (beginChangeover sec f t) := by
  have hmark : ∀ u, Keeps u (markPending sec f u) := fun u => of_drafts ((draftLaw_congr (by simp)).2)
    (by simp) (by simp) (by simp) (by simp) (by simp) (by simp) (by simp) (by simp)
  unfold Machine.beginChangeover
  dsimp only
  split
  · exact (((h.setSectionRec sec _).trans (hmark _)).setSectionRec sec _).enqueue _
  · exact (h.setSectionRec sec _).trans (hmark _)

end Keeps

end Sys2Proof.Machine
end

section
/-! SUPPORT. Every request keeps the laws of the proposal list, of the drafts and of the writer. -/

namespace Sys2Proof.Machine

variable {s t : State}

/-! ### Drafts (R40 to R43) -/

/-- Everything that a draft request can do: nothing, or the channel's draft becomes another that is as R38 has it
where the old one was. -/
theorem keeps_setDraft {ch : ChannelNo} {d : Option (List Change)}
    (h : (sel s.channels ch).DraftOk → ∀ l, d = some l → l.length ≤ 2 ∧ (keysOf l).Nodup) :
    Keeps s (s.setDraft ch d) :=
  .of_drafts fun hs => draftLaw_onChannel hs (h (hs ch))

theorem addChange_keeps (ch : ChannelNo) (c : Change) (s : State) : Keeps s (addChange ch c s).1 := by
  simp only [addChange]
  split
  · exact .refl s
  · next l hl =>
    split
    · exact .refl s
    · next hlen =>
      split
      · exact .refl s
      · next hkey =>
        refine keeps_setDraft fun hok l' hl' => ?_
        obtain rfl := Option.some.inj hl'
        have hkey : c.key ∉ keysOf l := by simpa [keysOf] using hkey
        refine ⟨by rw [List.length_append, List.length_singleton]; omega, ?_⟩
        simpa [keysOf] using List.Nodup.concat hkey (hok l hl).2

/-- A change that is amended keeps its key. -/
theorem amend_keeps (ch : ChannelNo) {f : Change → Option Change} (hf : ∀ c c', f c = some c' → c'.key = c.key)
    (s : State) : Keeps s (amend ch f s).1 := by
  simp only [amend]
  split
  · exact .refl s
  · next l hl =>
    split
    · exact .refl s
    · next c hc =>
      split
      · exact .refl s
      · next c' hc' =>
        refine keeps_setDraft fun hok l' hl' => ?_
        obtain rfl := Option.some.inj hl'
        obtain ⟨hlen, hkeys⟩ := hok l hl
        obtain ⟨l₀, rfl⟩ := List.getLast?_eq_some_iff.1 hc
        rw [List.dropLast_concat]
        simp only [keysOf, List.map_append, List.map_cons, List.map_nil, List.length_append, List.length_cons,
          List.length_nil, hf c c' hc'] at hlen hkeys ⊢
        exact ⟨hlen, hkeys⟩

theorem withBounds_key {low high : BoundField} (c c' : Change) (h : c.withBounds low high = some c') :
    c'.key = c.key := by
  cases c <;> cases h <;> rfl

theorem withTolerance_key {x : Half} (c c' : Change) (h : c.withTolerance x = some c') : c'.key = c.key := by
  cases c <;> cases h <;> rfl

theorem withPartner_key {q : ParamNo} (c c' : Change) (h : c.withPartner q = some c') : c'.key = c.key := by
  cases c with
  | set => cases h
  | create =>
    simp only [Change.withPartner] at h
    split at h <;> cases h
    rfl
  | retire => cases h

theorem runDraftSet_keeps (ch : ChannelNo) (a : Args) (s : State) : Keeps s (runDraftSet ch a s).1 := by
  simp only [runDraftSet]
  split
  · exact .refl s
  · exact addChange_keeps _ _ _

theorem runDraftCreate_keeps (ch : ChannelNo) (a : Args) (s : State) : Keeps s (runDraftCreate ch a s).1 := by
  simp only [runDraftCreate]
  split
  · exact addChange_keeps _ _ _
  · exact .refl s

theorem runDraftRetire_keeps (ch : ChannelNo) (a : Args) (s : State) : Keeps s (runDraftRetire ch a s).1 := by
  simp only [runDraftRetire]
  split
  · exact .refl s
  · exact addChange_keeps _ _ _

theorem runDraftBounds_keeps (ch : ChannelNo) (a : Args) (s : State) : Keeps s (runDraftBounds ch a s).1 := by
  simp only [runDraftBounds]
  split
  · exact amend_keeps ch withBounds_key s
  · exact .refl s

theorem runDraftPartner_keeps (ch : ChannelNo) (a : Args) (s : State) : Keeps s (runDraftPartner ch a s).1 := by
  simp only [runDraftPartner]
  split
  · exact .refl s
  · exact amend_keeps ch withPartner_key s

/-! ### The proposal list (R44, R58, R59, R66) -/

/-- DRAFT_SUBMIT refuses, or the changes pass every check and a proposal is made of them. -/
theorem runDraftSubmit_cases (ch : ChannelNo) (s : State) : (runDraftSubmit ch s).1 = s ∨
    ∃ l, s.draft ch = some l ∧ l ≠ [] ∧ submissionChecks s (s.role ch) l = none ∧
      (runDraftSubmit ch s).1 = createProposal ch l s := by
  simp only [runDraftSubmit]
  split
  · exact .inl rfl
  · exact .inl rfl
  · next c rest hd =>
    split
    · exact .inl rfl
    · next hnone => exact .inr ⟨_, hd, List.cons_ne_nil _ _, hnone, rfl⟩

theorem runDraftSubmit_keeps (ch : ChannelNo) (hr : s.ready = true) : Keeps s (runDraftSubmit ch s).1 := by
  rcases runDraftSubmit_cases ch s with h | ⟨l, hd, hne, hchecks, h⟩
  · rw [h]
  · rw [h]
    have hphase : s.phase = .running := by simpa [State.ready] using hr
    exact
      { proposals := fun hp hds => proposalLaw_submit hp (hds ch l hd).2 hchecks
        drafts := fun hds => draftLaw_onChannel (s := { s with
            proposals := s.proposals ++ [s.newProposal ch l]
            lastNumber := s.newNumber
            nextStamp := s.nextStamp + 1 }) hds nofun
        writer := fun hw => hw.submit (newNumber_new (length_of_submission hchecks)) hne
          (changesFit_of_submission hchecks (hw.partners hphase)) }

/-- What the checks of approval pass (R66, R68). -/
theorem approvalChecks_none {ch : ChannelNo} {p : Proposal} (h : approvalChecks s ch p = none) :
    p.isWriting = false ∧ createCount p.changes ≤ s.approvalRoom := by
  unfold approvalChecks at h
  split at h
  · cases h
  · next hw =>
    refine ⟨by simpa using hw, ?_⟩
    split at h
    · cases h
    · split at h
      · cases h
      · obtain ⟨-, hroom⟩ := Option.or_eq_none_iff.1 h
        split at hroom
        · cases hroom
        · split at hroom
          · cases hroom
          · next hle => exact Nat.le_of_not_lt hle

/-- APPROVE refuses, or the AWAITING proposal has room and becomes WRITING. -/
theorem runApprove_cases (ch : ChannelNo) (a : Args) (s : State) : (runApprove ch a s).1 = s ∨
    ∃ p ∈ s.proposals, p.isWriting = false ∧ createCount p.changes ≤ s.approvalRoom ∧
      (runApprove ch a s).1 = enqueue (.proposal ch p.number) (markWriting p.number ch s) := by
  simp only [runApprove]
  split
  · exact .inl rfl
  · split
    · exact .inl rfl
    · next p hp =>
      obtain ⟨hmem, hn⟩ := mem_of_proposal hp
      split
      · exact .inl rfl
      · next hnone =>
        obtain ⟨hw, hroom⟩ := approvalChecks_none hnone
        exact .inr ⟨p, hmem, hw, hroom, by rw [hn]⟩

theorem runApprove_keeps (ch : ChannelNo) (a : Args) (s : State) : Keeps s (runApprove ch a s).1 := by
  rcases runApprove_cases ch a s with h | ⟨p, hp, hw, hroom, h⟩
  · rw [h]
  · rw [h]
    exact
      { proposals := fun hp _ => proposalLaw_map (f := approved p.number ch) hp ((enqueue_proposals _ _).trans (markWriting_proposals_eq _ _ _))
          (by simp) (by simp) fun q => ⟨approved_number _ _ q, approved_stamp _ _ q, approved_changes _ _ q⟩
        drafts := (draftLaw_congr (by simp)).2
        writer := fun h => h.approve hp hw ch hroom }

/-- An AWAITING proposal is removed. -/
theorem removeProposal_keeps {p : Proposal} (hp : p ∈ s.proposals) (hw : p.isWriting = false) :
    Keeps s (removeProposal p.number s) where
  proposals h _ := proposalLaw_sublist h List.filter_sublist rfl rfl
  drafts := id
  writer h := h.remove hp hw

theorem runReject_keeps (ch : ChannelNo) (a : Args) (s : State) : Keeps s (runReject ch a s).1 := by
  simp only [runReject]
  split
  · exact .refl s
  · split
    · exact .refl s
    · next p hp =>
      obtain ⟨hmem, hn⟩ := mem_of_proposal hp
      split
      · exact .refl s
      · next hw =>
        split
        · exact .refl s
        · exact hn ▸ removeProposal_keeps hmem (by simpa using hw)

theorem runWithdraw_keeps (ch : ChannelNo) (a : Args) (s : State) : Keeps s (runWithdraw ch a s).1 := by
  simp only [runWithdraw]
  split
  · exact .refl s
  · split
    · exact .refl s
    · next p hp =>
      obtain ⟨hmem, hn⟩ := mem_of_proposal hp
      split
      · exact .refl s
      · next hw =>
        split
        · exact .refl s
        · exact hn ▸ removeProposal_keeps hmem (by simpa using hw)

/-! ### The channels' other requests -/

theorem keeps_setChannel (ch : ChannelNo) {c : Channel} (h : c.draft = (sel s.channels ch).draft) :
    Keeps s (s.setChannel ch c) :=
  .of_drafts fun hs => draftLaw_onChannel (f := fun _ => c) hs ((draftLaw_iff.1 hs ch).of_draft (.inl h))

theorem keeps_setCursor (ch : ChannelNo) (c : Cursor) : Keeps s (s.setCursor ch c) :=
  .onChannel ch _ fun _ => .inl rfl

theorem runModuleInfo_keeps (a : Args) (s : State) : Keeps s (runModuleInfo a s).1 := by
  simp only [runModuleInfo]; split <;> exact .of_drafts id

theorem runSetEventMask_keeps (ch : ChannelNo) (a : Args) (s : State) : Keeps s (runSetEventMask ch a s).1 := by
  simp only [runSetEventMask]
  split
  · exact .refl s
  · exact .onChannel ch (fun c => { c with mask := _ }) fun _ => .inl rfl

theorem runSignOn_keeps (ch : ChannelNo) (a : Args) (s : State) : Keeps s (runSignOn ch a s).1 := by
  simp only [runSignOn]
  split
  · exact .refl s
  · split
    · exact .refl s
    · split
      · exact .refl s
      · split
        · exact keeps_setChannel ch rfl
        · exact keeps_setChannel ch rfl

theorem runListEntries_keeps (ch : ChannelNo) (a : Args) (s : State) : Keeps s (runListEntries ch a s).1 := by
  simp only [runListEntries]
  split
  · split <;> exact keeps_setCursor ch _
  · exact .refl s

theorem runNextEntry_keeps (ch : ChannelNo) (s : State) : Keeps s (runNextEntry ch s).1 := by
  simp only [runNextEntry]
  split
  · split
    · exact .refl s
    · exact keeps_setCursor ch _
  · exact .refl s
  · exact .refl s

theorem runListProposals_keeps (ch : ChannelNo) (s : State) : Keeps s (runListProposals ch s).1 := by
  simp only [runListProposals]; split <;> exact keeps_setCursor ch _

theorem runNextProposal_keeps (ch : ChannelNo) (s : State) : Keeps s (runNextProposal ch s).1 := by
  simp only [runNextProposal]
  split
  · split
    · exact .refl s
    · exact keeps_setCursor ch _
  · exact .refl s
  · exact .refl s

/-! ### Settings, stations, sections and outputs -/

theorem keeps_setStation (st : StationNo) (r : StationRec) : Keeps s (s.setStation st r) := .of_drafts id

theorem keeps_access (m : ModuleRecord) : Keeps s { s with access := m } := .of_drafts id

theorem runSetRoleCode_keeps (a : Args) (s : State) : Keeps s (runSetRoleCode a s).1 := by
  simp only [runSetRoleCode]
  split
  · exact (keeps_access _).enqueue .moduleRec
  · exact .refl s

theorem runOpenRelease_keeps (a : Args) (s : State) : Keeps s (runOpenRelease a s).1 := by
  simp only [runOpenRelease]; split <;> exact .of_drafts id

theorem runSetLifetime_keeps (a : Args) (s : State) : Keeps s (runSetLifetime a s).1 := by
  simp only [runSetLifetime]
  split
  · exact .refl s
  · exact (keeps_access _).enqueue .moduleRec

theorem runEnroll_keeps (a : Args) (s : State) : Keeps s (runEnroll a s).1 := by
  simp only [runEnroll]
  split
  · next st sec _ _ =>
    have henrolled : ∀ r, Keeps s (recompute sec (enqueue (.station st) (s.setStation st r))) := fun r =>
      ((keeps_setStation st r).enqueue _).recompute sec
    split
    · exact .refl s
    · split
      · exact .refl s
      · dsimp only
        split
        · exact (henrolled _).recompute _
        · exact henrolled _
  · exact .refl s

theorem runUnenroll_keeps (a : Args) (s : State) : Keeps s (runUnenroll a s).1 := by
  simp only [runUnenroll]
  split
  · exact .refl s
  · split
    · exact .refl s
    · split
      · exact .refl s
      · exact ((keeps_setStation _ _).enqueue _).recompute _

theorem runReportValue_keeps (a : Args) (s : State) : Keeps s (runReportValue a s).1 := by
  simp only [runReportValue]
  repeat' split
  all_goals exact .of_drafts id

theorem judgeDigest_keeps (st : StationNo) (f : FormatNo) (d : DigestPair) (r : StationRec) (s : State) :
    Keeps s (judgeDigest st f d r s).1 := by
  simp only [judgeDigest]
  split
  · exact keeps_setStation _ _
  · split
    · simp only [reportAdoption]
      split
      · exact ((keeps_setStation _ _).enqueue _).adoptionNotice _
      · exact keeps_setStation _ _
    · exact keeps_setStation _ _

theorem runReportDigest_keeps (a : Args) (s : State) : Keeps s (runReportDigest a s).1 := by
  simp only [runReportDigest]
  split
  · split
    · exact .refl s
    · split
      · exact .refl s
      · split
        · exact .refl s
        · exact judgeDigest_keeps _ _ _ _ s
  · exact .refl s

theorem runHold_keeps (ch : ChannelNo) (a : Args) (s : State) : Keeps s (runHold ch a s).1 := by
  simp only [runHold]
  repeat' split
  all_goals exact .of_drafts id

theorem runReleaseHold_keeps (ch : ChannelNo) (a : Args) (s : State) : Keeps s (runReleaseHold ch a s).1 := by
  simp only [runReleaseHold]
  repeat' split
  all_goals exact .of_drafts id

theorem runChangeover_keeps (a : Args) (s : State) : Keeps s (runChangeover a s).1 := by
  simp only [runChangeover]
  split
  · split
    · exact .refl s
    · split
      · exact .refl s
      · dsimp only
        exact (Keeps.refl s).beginChangeover _ _
  · exact .refl s

theorem runAbortChangeover_keeps (a : Args) (s : State) : Keeps s (runAbortChangeover a s).1 := by
  simp only [runAbortChangeover]
  split
  · exact .refl s
  · split
    · dsimp only
      exact (Keeps.refl s).endChangeover _
    · exact .refl s

theorem runSetSection_keeps (a : Args) (s : State) : Keeps s (runSetSection a s).1 := by
  simp only [runSetSection]
  split
  · exact .refl s
  · split
    · exact .refl s
    · split
      · exact .refl s
      · exact ((Keeps.refl s).setSectionRec _ _).enqueue _

theorem runSetOutputMode_keeps (ch : ChannelNo) (a : Args) (s : State) : Keeps s (runSetOutputMode ch a s).1 := by
  simp only [runSetOutputMode]
  repeat' split
  all_goals exact .of_drafts id

/-! ### Any request -/

/-- What any owning block does, once READY is set, keeps the laws. -/
theorem requestOf_keeps {code : Nat} {r : RequestSpec} (h : requestOf code = some r) (ch : ChannelNo) (a : Args)
    (hr : s.ready = true) : Keeps s (r.run ch a s).1 := by
  unfold requestOf at h
  split at h <;> cases h
  · exact runModuleInfo_keeps a s
  · exact .onChannel ch (fun c => { c with flags := .empty }) fun _ => .inl rfl
  · exact runSetEventMask_keeps ch a s
  · exact runSignOn_keeps ch a s
  · exact .onChannel ch (fun c => { c with role := .noRole, draft := none }) fun _ => .inr rfl
  · exact runSetRoleCode_keeps a s
  · exact runOpenRelease_keeps a s
  · exact .of_drafts id
  · exact runSetLifetime_keeps a s
  · exact .refl s
  · exact .refl s
  · exact .refl s
  · exact .refl s
  · exact runListEntries_keeps ch a s
  · exact runNextEntry_keeps ch s
  · exact .refl s
  · exact keeps_setDraft fun _ l hl => by cases hl; exact ⟨Nat.zero_le 2, .nil⟩
  · exact runDraftSet_keeps ch a s
  · exact runDraftCreate_keeps ch a s
  · exact runDraftRetire_keeps ch a s
  · exact runDraftBounds_keeps ch a s
  · exact amend_keeps ch withTolerance_key s
  · exact runDraftPartner_keeps ch a s
  · exact runDraftSubmit_keeps ch hr
  · exact keeps_setDraft nofun
  · exact runApprove_keeps ch a s
  · exact runReject_keeps ch a s
  · exact runWithdraw_keeps ch a s
  · exact runListProposals_keeps ch s
  · exact runNextProposal_keeps ch s
  · exact .refl s
  · exact runEnroll_keeps a s
  · exact runUnenroll_keeps a s
  · exact runReportValue_keeps a s
  · exact runReportDigest_keeps a s
  · exact runHold_keeps ch a s
  · exact runReleaseHold_keeps ch a s
  · exact .refl s
  · exact .refl s
  · exact runChangeover_keeps a s
  · exact runAbortChangeover_keeps a s
  · exact runSetSection_keeps a s
  · exact .refl s
  · exact runSetOutputMode_keeps ch a s

theorem arrive_keeps (ch : ChannelNo) (req : Request) (s : State) : Keeps s (arrive ch req s) :=
  .onChannel ch _ fun _ => .inl rfl

theorem complete_draft (c : Channel) (answer : AnswerArea) : (c.complete answer).draft = c.draft := by
  unfold Channel.complete; split <;> rfl

theorem deliver_keeps (ch : ChannelNo) (code : AnswerCode) (result : List Byte) (s : State) :
    Keeps s (deliver ch code result s) :=
  .onChannel ch _ fun c => .inl (complete_draft c _)

theorem reply_keeps (ch : ChannelNo) (r : Reply) (s : State) : Keeps s (reply ch r s) := by
  cases r with
  | now code result => exact deliver_keeps ch code result s
  | later => exact .refl s

/-- Where no check of R174 refuses, READY is set. -/
theorem ready_of_precheck {r : RequestSpec} {ch : ChannelNo} {a : Args} (h : precheck r ch a s = none) :
    s.ready = true := by
  unfold precheck at h
  split at h
  · cases h
  · next hr => simpa using hr

/-- Any request, taken by its code, keeps the laws. -/
theorem takeCode_keeps (ch : ChannelNo) (code : Byte) (a : Args) (s : State) : Keeps s (takeCode ch code a s) := by
  unfold takeCode
  split
  · next r hr =>
    unfold takeRequest
    split
    · refine (arrive_keeps ch ⟨r.code, a⟩ s).trans ?_
      unfold handOn
      split
      · exact reply_keeps _ _ _
      · next hnone =>
        exact ((requestOf_keeps hr ch a (ready_of_precheck hnone)).settle _).trans (reply_keeps _ _ _)
    · exact .refl s
  · unfold takeUnlisted
    split
    · exact (arrive_keeps ch _ s).trans (reply_keeps _ _ _)
    · exact .refl s

end Sys2Proof.Machine
end

section
/-! SUPPORT. What the commands other than the store's own keep, before READY too. -/

namespace Sys2Proof.Machine

variable {s t u : State}

/-- From `s` to `t` the laws of the proposal list, of the drafts and of the writer are kept, the phase stays, and where
READY is not set yet nothing comes to be open, queued or written, and no section leaves STEADY. -/
structure WritingKept (s t : State) : Prop extends Keeps s t where
  phase : t.phase = s.phase
  idle : s.phase ≠ .running → NothingOpen s → NothingOpen t

namespace WritingKept

theorem refl (s : State) : WritingKept s s := ⟨.refl s, rfl, fun _ h => h⟩

theorem trans (h : WritingKept s t) (h' : WritingKept t u) : WritingKept s u where
  toKeeps := h.toKeeps.trans h'.toKeeps
  phase := h'.phase.trans h.phase
  idle hr hs := h'.idle (h.phase ▸ hr) (h.idle hr hs)

/-- An event that leaves alone all that R74 speaks of, and the sections. -/
theorem of_keeps (h : Keeps s t) (hph : t.phase = s.phase := by rfl) (hp : t.proposals = s.proposals := by rfl)
    (hq : t.queue = s.queue := by rfl) (hw : t.writer = s.writer := by rfl) (hs : t.sections = s.sections := by rfl) :
    WritingKept s t where
  toKeeps := h
  phase := hph
  idle _ hn := by
    unfold NothingOpen at hn ⊢
    rwa [hp, hq, hw, hs]

theorem of_drafts (hd : DraftLaw s → DraftLaw t) (hp : t.proposals = s.proposals := by rfl)
    (hl : t.lastNumber = s.lastNumber := by rfl) (hn : t.nextStamp = s.nextStamp := by rfl)
    (hph : t.phase = s.phase := by rfl) (hs : t.slots = s.slots := by rfl) (ha : t.array = s.array := by rfl)
    (hq : t.queue = s.queue := by rfl) (hw : t.writer = s.writer := by rfl)
    (hsec : t.sections = s.sections := by rfl) : WritingKept s t :=
  of_keeps (.of_drafts hd hp hl hn hph hs ha hq hw) hph hp hq hw hsec

theorem settle (b : State) (h : WritingKept s t) : WritingKept s (settle b t) :=
  h.trans (of_keeps ((Keeps.refl t).settle b))

theorem onChannel (ch : ChannelNo) (f : Channel → Channel) (hf : ∀ c, (f c).draft = c.draft ∨ (f c).draft = none) :
    WritingKept s (s.onChannel ch f) :=
  of_keeps (.onChannel ch f hf)

/-- Of an event that occurs on a condition. -/
theorem ite (b : Bool) (h : WritingKept s t) : WritingKept s (if b then t else s) := by
  cases b
  · exact refl s
  · exact h

end WritingKept

/-! ### Requests -/

/-- Before READY a request is not seen, or answers NOT_READY. -/
theorem takeCode_notReady (ch : ChannelNo) (code : Byte) (a : Args) (hr : s.ready = false) :
    takeCode ch code a s = s ∨ takeCode ch code a s = answered ch .notReady [] s := by
  unfold takeCode
  cases harrive : s.canArrive ch with
  | false =>
    left
    split
    · exact takeRequest_unseen harrive
    · simp [takeUnlisted, harrive]
  | true =>
    right
    split
    · exact takeRequest_notReady harrive hr
    · simp only [takeUnlisted, harrive, hr, if_true]
      exact deliver_arrive ch _ _ _ s

theorem takeCode_kept (ch : ChannelNo) (code : Byte) (a : Args) (s : State) :
    WritingKept s (takeCode ch code a s) where
  toKeeps := takeCode_keeps ch code a s
  phase := (takeCode_frame ch code a s).phase
  idle hr hs := by
    rcases takeCode_notReady ch code a (s := s) (by simpa [State.ready] using hr) with h | h <;> rw [h] <;> exact hs

/-! ### The channels -/

theorem acknowledge_draft (c : Channel) : c.acknowledge.draft = c.draft := by
  unfold Channel.acknowledge; split <;> rfl
theorem abandon_draft (c : Channel) : c.abandon.draft = c.draft := by
  unfold Channel.abandon; split <;> rfl
theorem startReset_draft (c : Channel) : c.startReset.draft = c.draft ∨ c.startReset.draft = none := by
  unfold Channel.startReset
  split
  · exact .inl rfl
  · exact .inr rfl
theorem endReset_draft (c : Channel) (req : Bool) : (c.endReset req).draft = c.draft := by
  unfold Channel.endReset; split <;> rfl

theorem reqClear_draft (c : Channel) : c.reqClear.draft = c.draft := by
  unfold Channel.reqClear
  split
  · rfl
  · exact acknowledge_draft c
  · exact abandon_draft c

theorem takeControl_kept (image : OutputImage) (s : State) (ch : ChannelNo) :
    WritingKept s (takeControl image s ch) := by
  simp only [takeControl]
  split
  · exact .onChannel ch _ startReset_draft
  · split
    · exact .onChannel ch _ fun c => .inl (endReset_draft c _)
    · split
      · exact takeCode_kept _ _ _ _
      · exact .onChannel ch _ fun c => .inl (reqClear_draft c)

theorem foldl_takeControl_kept (image : OutputImage) (l : List ChannelNo) (s : State) :
    WritingKept s (l.foldl (takeControl image) s) := by
  induction l generalizing s with
  | nil => exact .refl s
  | cons ch l ih => exact (takeControl_kept image s ch).trans (ih _)

theorem execImageExchange_kept {image : OutputImage} (h : execImageExchange image s = .next t) : WritingKept s t := by
  cases h
  exact .ite _ ((WritingKept.of_drafts id : WritingKept s (beginExchange s)).trans (foldl_takeControl_kept image _ _))

theorem execLinkLoss_kept (h : execLinkLoss s = .next t) : WritingKept s t := by
  cases h
  exact .ite _ (.settle s (.of_drafts
    (Keeps.eachChannel Channel.loseLink (fun _ => .inr rfl) (t := loseLink s) rfl)))

/-! ### Expiries -/

theorem awaiting_of_due {p : Proposal} (h : timerDue p.state.timer = true) : p.isWriting = false := by
  unfold Proposal.isWriting
  cases hp : p.state with
  | awaiting ms => rfl
  | writing ch => rw [hp] at h; cases h

theorem execProposalExpiry_kept {n : Nat} (h : execProposalExpiry n s = .next t) : WritingKept s t := by
  cases h
  split
  · exact .refl s
  · next p hp =>
    obtain ⟨hmem, rfl⟩ := mem_of_proposal hp
    split
    · next hdue =>
      refine .settle s ⟨removeProposal_keeps hmem (awaiting_of_due hdue), rfl, fun _ hs => ?_⟩
      rw [hs.1] at hmem
      cases hmem
    · exact .refl s

theorem execDeadlineExpiry_kept {sec : SectionNo} (h : execDeadlineExpiry sec s = .next t) : WritingKept s t := by
  cases h
  split
  · next hdue =>
    refine .settle s ⟨(Keeps.refl s).endChangeover sec, ((StoreFrame.refl s).endChangeover sec).phase, fun _ hs => ?_⟩
    obtain ⟨-, -, -, hsteady⟩ := hs
    rw [hsteady sec] at hdue
    cases hdue
  · exact .refl s

/-- Every command but the store's own. -/
theorem exec_kept {c : Instr} (hc : isStoreEvent c = false) (h : exec c s = .next t) : WritingKept s t := by
  cases hreq : requestParts c with
  | some x =>
    rw [exec_request hreq] at h
    cases h
    exact takeCode_kept _ _ _ _
  | none =>
    cases c <;> simp only [requestParts, isStoreEvent, reduceCtorEq] at hreq hc
    case imageExchange image => exact execImageExchange_kept h
    case answerAcknowledge ch => cases h; exact .ite _ (.onChannel ch _ fun c => .inl (acknowledge_draft c))
    case requestAbandonment ch => cases h; exact .ite _ (.onChannel ch _ fun c => .inl (abandon_draft c))
    case channelReset ch => cases h; exact .ite _ (.onChannel ch _ startReset_draft)
    case channelResetEnd ch req => cases h; exact .ite _ (.onChannel ch _ fun c => .inl (endReset_draft c req))
    case linkLoss => exact execLinkLoss_kept h
    case proposalExpiry n => exact execProposalExpiry_kept h
    case deadlineExpiry sec => exact execDeadlineExpiry_kept h
    case lockoutExpiry ch => cases h; exact .ite _ (.onChannel ch _ fun _ => .inl rfl)
    case readbackChange sec level =>
      cases h
      split
      · exact .refl s
      · exact .settle s (.of_drafts id)
    case outputFaultDelayExpiry sec =>
      cases h
      split
      · exact .settle s (.of_drafts id)
      · exact .refl s
    case fieldSupplyLoss => cases h; exact .of_drafts id
    case fieldSupplyReturn => cases h; exact .of_drafts id
    case windowExpiry st => cases h; exact .ite _ (.settle s (.of_drafts id))
    case bypassExpiry sec => cases h; exact .ite _ (.settle s (.of_drafts id))
    case releaseExpiry => cases h; exact .ite _ (.settle s (.of_drafts id))
    all_goals
      cases h
      exact .ite _ (.of_drafts id)

/-! ### A millisecond -/

theorem tick_kept (s : State) : WritingKept s s.tick where
  proposals h _ := proposalLaw_map (f := ticked) h rfl rfl rfl fun _ => ⟨rfl, rfl, rfl⟩
  drafts h := Keeps.eachChannel (fun c => { c with lockout := timerTick c.lockout }) (fun _ => .inl rfl)
    (t := s.tick) rfl h
  writer h := h.tick
  phase := rfl
  idle _ hs := by
    obtain ⟨hp, hq, hw, hsteady⟩ := hs
    refine ⟨by rw [tick_proposals, hp]; rfl, hq, hw, fun sec => ?_⟩
    simp [State.tick, hsteady sec, SectionState.tick]

end Sys2Proof.Machine
end

section
/-! SUPPORT. What the store's own commands keep: the completions, the module resets, and the end of the scan. -/

namespace Sys2Proof.Machine

variable {s t u : State}

/-! ### Record items (R78) -/

/-- The writer takes the next item at the end of a record item, and only then. -/
theorem execRecordWriteCompletion_record {o : RecordOutcome} (h : exec (.recordWriteCompletion o) s = .next t) :
    t = s ∨ ∃ j, s.writer = some j ∧ j.isRecord = true ∧ t = takeItem (settle s (endRecord o j s)) := by
  cases h
  split
  · exact .inl rfl
  · next j hj =>
    split
    · next hrec => exact .inr ⟨j, hj, hrec, rfl⟩
    · exact .inl rfl

theorem recordCompletion_kept {o : RecordOutcome} (h : exec (.recordWriteCompletion o) s = .next t) :
    WritingKept s t := by
  rcases execRecordWriteCompletion_record h with rfl | ⟨j, hw, hj, rfl⟩
  · exact .refl t
  · have hend : Keeps s (endRecord o j s) := ⟨fun hp _ => hp, id, fun h => h.endRecord hw hj o⟩
    refine ⟨(hend.settle s).trans (.takeItem _), by simp [endRecord], fun _ hs => ?_⟩
    obtain ⟨-, -, hnone, -⟩ := hs
    rw [hnone] at hw
    cases hw

/-! ### Slot writes (R81) -/

/-- A slot write ends, and another one of the item follows. -/
theorem execSlotWriteCompletion_following {o : SlotOutcome} (h : exec (.slotWriteCompletion o) s = .next t) :
    t = s ∨ ∃ ch number plans results p, s.writer = some (.proposal ch number plans results) ∧
      results.length + 1 < plans.length ∧ plans[results.length]? = some p ∧
      t = { s with
        array := (writeSlotPlan p o s.array).1
        writer := some (.proposal ch number plans (results ++ [(writeSlotPlan p o s.array).2])) } := by
  cases h
  split
  · next ch number plans results hw =>
    split
    · next hlt =>
      split
      · exact .inl rfl
      · next p hp => exact .inr ⟨ch, number, plans, results, p, hw, hlt, hp, rfl⟩
    · exact .inl rfl
  all_goals exact .inl rfl

/-- A result joins those done before: it is of the slot write that stands at their number. -/
theorem mem_zip_concat {α β : Type} {l : List α} {r : List β} {v : β} {x : α} (hx : l[r.length]? = some x) {d : α × β}
    (hd : d ∈ l.zip (r ++ [v])) : d ∈ l.zip r ∨ d = (x, v) := by
  induction r generalizing l with
  | nil =>
    cases l with
    | nil => cases hx
    | cons y l =>
      obtain rfl : y = x := by simpa using hx
      exact .inr (by simpa using hd)
  | cons b r ih =>
    cases l with
    | nil => cases hx
    | cons y l =>
      rcases List.mem_cons.1 hd with rfl | hd
      · exact .inl List.mem_cons_self
      · exact (ih (by simpa using hx) hd).imp (List.mem_cons_of_mem _) id

/-- The slot write that is next is none of those done. -/
theorem next_not_done {α β : Type} {l : List α} {r : List β} {x : α} (hl : l.Nodup) (hx : l[r.length]? = some x)
    {v : β} : (x, v) ∉ l.zip r := by
  intro hd
  obtain ⟨i, hi, he⟩ := List.mem_iff_getElem.1 hd
  obtain ⟨hlt, hxe⟩ := List.getElem?_eq_some_iff.1 hx
  rw [List.getElem_zip, Prod.mk.injEq] at he
  rw [List.length_zip] at hi
  have := hl.getElem_inj_iff.1 (he.1.trans hxe.symm)
  omega

/-- R80: after a slot write, a RETIRE of the item that verified has left its slot free. -/
theorem retired_free {plans : List SlotPlan} {results : List Bool} {p q : SlotPlan} {o : SlotOutcome} {a : NvArray}
    (ha : a.wf = true) (hn : (plans.map SlotPlan.slot).Nodup) (hp : plans[results.length]? = some p)
    (hdone : ∀ q, (q, true) ∈ plans.zip results → q.kind = .retire → (a.slot q.slot).header = .free)
    (hq : (q, true) ∈ plans.zip (results ++ [(writeSlotPlan p o a).2])) (hk : q.kind = .retire) :
    (((writeSlotPlan p o a).1).slot q.slot).header = .free := by
  rcases mem_zip_concat hp hq with hold | hnew
  · have hne : q.slot ≠ p.slot := by
      intro hs
      obtain rfl := List.inj_on_of_nodup_map hn (List.of_mem_zip hold).1 (List.mem_of_getElem? hp) hs
      exact next_not_done (hn.of_map _) hp hold
    rw [slot_writeSlotPlan_ne o a hne]
    exact hdone q hold hk
  · obtain ⟨rfl, hv⟩ := Prod.mk.inj hnew
    exact header_of_retired ha hk hv.symm

theorem slotCompletion_writingLaws {o : SlotOutcome} (h : exec (.slotWriteCompletion o) s = .next t) (hs : StoreLaw s)
    (hprop : ProposalLaw s) (htab : TableLaw s) (hwriting : WritingLaw s) (hwork : WorkLaw s) :
    WritingLaw t ∧ WorkLaw t := by
  rcases execSlotWriteCompletion_following h with rfl | ⟨ch, number, plans, results, p, hw, hlt, hp, rfl⟩
  · exact ⟨hwriting, hwork⟩
  · obtain ⟨hm, -⟩ := htab
    obtain ⟨l, hl⟩ := writer_completionOf hm hprop hwork hw
    have hslots : (plans.map SlotPlan.slot).Nodup := by
      simpa [Function.comp_def] using (hl (plans.map fun p => (p, true)) (by simp [Function.comp_def])).plans.slots
    obtain ⟨⟨hnodup, hopen, hboth⟩, hidle⟩ := writingLaw_iff.1 hwriting
    obtain ⟨hfit, hroom, hplans, hretired⟩ := hwork
    have hbeing : ∀ r ch' n, (∃ plans' results', some (Job.proposal ch number plans r) =
        some (.proposal ch' n plans' results')) ↔ BeingWritten s ch' n := by
      intro r ch' n
      simp [BeingWritten, hw]
    refine ⟨writingLaw_iff.2 ⟨⟨hnodup, fun ch' n => ?_, fun ch' n => ?_⟩, fun hr => ?_⟩, hfit, hroom, ?_, ?_⟩
    · exact (or_congr_right (hbeing _ ch' n)).trans (hopen ch' n)
    · exact fun hb => hboth ch' n ⟨hb.1, (hbeing _ ch' n).1 hb.2⟩
    · obtain ⟨-, -, hnone, -⟩ := hidle hr
      rw [hnone] at hw
      cases hw
    · rintro ch' n plans' results' ⟨⟩
      exact ⟨by rw [List.length_append, List.length_singleton]; exact hlt, (hplans ch number plans results hw).2⟩
    · rintro ch' n plans' results' q ⟨⟩ hq hk
      exact retired_free hs.2.1 hslots hp (fun q => hretired ch number plans results q hw) hq hk

/-! ### The item's completion (R82) -/

theorem effective_congr {m m' : SlotMap Entry} {c : Change} (h : entryAt m' c.key = entryAt m c.key) :
    c.effective m' = c.effective m := by
  cases c with
  | set k => exact congrArg (fun e : Option Entry => some (BoundField.after _ ((e.bind Entry.body).bind Body.low),
      BoundField.after _ ((e.bind Entry.body).bind Body.high), _)) h
  | create => rfl
  | retire => rfl

theorem partnerOf_congr {m m' : SlotMap Entry} {c : Change} (h : entryAt m' c.key = entryAt m c.key) :
    partnerOf m' c = partnerOf m c := by
  cases c with
  | set k => exact congrArg (·.bind Entry.partner) h
  | create => rfl
  | retire k => exact congrArg (·.bind Entry.partner) h

/-- Changes fit every table in which their keys have the same entries. -/
theorem ChangesFit.congr {m m' : SlotMap Entry} {l : List Change} (h : ChangesFit m l)
    (hm : ∀ c ∈ l, entryAt m' c.key = entryAt m c.key) : ChangesFit m' l := by
  intro c hc
  obtain ⟨hcreate, hbounds, hpartner⟩ := h c hc
  rw [hm c hc, effective_congr (hm c hc), partnerOf_congr (hm c hc)]
  refine ⟨hcreate, hbounds, fun q hq => ?_⟩
  obtain ⟨d, hd, hk, hkind, hback⟩ := hpartner q hq
  exact ⟨d, hd, hk, hkind, by rw [partnerOf_congr (hm d hd)]; exact hback⟩

/-- There is a slot write of a CREATE for every CREATE. -/
theorem PlansFor.creates {m : SlotMap Entry} {all l : List Change} {taken : List Nat} {plans : List SlotPlan}
    (h : PlansFor m all taken l plans) : (plans.filter fun p => p.kind == .create).length = createCount l := by
  have := h.each
  clear h
  induction this with
  | nil => rfl
  | @cons c p l plans hcp _ ih =>
    unfold createCount at ih ⊢
    rw [List.filter_cons, List.filter_cons, hcp.kind]
    split
    · rw [List.length_cons, List.length_cons, ih]
    · exact ih

/-- A completion adds to the table the entries of its CREATEs at most. -/
theorem CompletionOf.length_le {m : SlotMap Entry} {l : List Change} {all : List SlotResult} (h : CompletionOf m l all)
    (hm : workingWf m = true) (hu : KeysUnique m) : (applyResults all m).length ≤ m.length + createCount l := by
  have hplaced := h.placed hm hu
  have hm' := workingWf_applyResults hm hplaced.inArray
  have hsub : (applyResults all m).map Prod.fst ⊆
      m.map Prod.fst ++ ((all.map Prod.fst).filter fun p => p.kind == .create).map SlotPlan.slot := by
    intro n hn
    obtain ⟨⟨_, e⟩, hx, rfl⟩ := List.mem_map.1 hn
    rw [List.mem_append]
    rcases slotGet_applyResults_cases hm hplaced.toResultSlots (slotGet_of_mem hm' hx) with ⟨d, hd, hdn, -⟩ | ⟨-, hl⟩
    · obtain ⟨c, -, hcd⟩ := h.change hd
      by_cases hk : c.kind = .create
      · refine .inr (List.mem_map.2 ⟨d.1, List.mem_filter.2 ⟨List.mem_map_of_mem hd, ?_⟩, hdn⟩)
        simpa using hcd.kind.trans hk
      · obtain ⟨e', he', -⟩ := hcd.stands hk
        have hold := List.mem_map_of_mem (f := Prod.fst) he'
        rw [← hdn]
        exact .inl hold
    · exact .inl (List.mem_map_of_mem (f := Prod.fst) (mem_of_slotGet hl))
  have hnodup : ((applyResults all m).map Prod.fst).Nodup := (slotsRise_pairwise hm').imp Nat.ne_of_lt
  have hle := (hnodup.subperm hsub).length_le
  rwa [List.length_append, List.length_map, List.length_map, List.length_map, h.plans.creates] at hle

/-- Effects 1 to 4 of R82 keep what R74 rests on: the item's proposal is gone from the list, its slot writes are in the
table, and the writer is free. -/
theorem WriterLaws.complete (h : WriterLaws s) {ch : ChannelNo} {number : Nat} {plans : List SlotPlan}
    {results : List Bool} (hw : s.writer = some (.proposal ch number plans results)) (hprop : ProposalLaw s)
    (htab : TableLaw s) {all : List SlotResult} (hall : all.map Prod.fst = plans) (arr : NvArray)
    (judged : Bank 32 StationRec) : WriterLaws (completedState number all arr judged s) := by
  obtain ⟨hnodup, hopen, hboth⟩ := h.queued
  obtain ⟨hfit, hroom, hplans, -⟩ := h.work
  obtain ⟨hm, hu, -⟩ := htab
  obtain ⟨-, p, hp, hn, hplan⟩ := hplans ch number plans results hw
  have hbeing : BeingWritten s ch number := ⟨plans, results, hw⟩
  obtain ⟨p', hp', hn', hstate⟩ := (hopen ch number).1 (.inr hbeing)
  obtain rfl := h.numbers.eq hp' hp (hn'.trans hn.symm)
  have hkeys := (List.nodup_flatMap.1 hprop.2.2.2.2.1).1 p' hp
  have hof : CompletionOf s.slots p'.changes (tableResults s.freed all) :=
    CompletionOf.tableResults ⟨hall ▸ planSlots_spec hm hkeys (fun _ h => h) hplan, hkeys, (hfit p' hp).2⟩ s.freed
  have hmem : ∀ {q}, q ∈ s.proposals.filter (fun q => q.number != number) ↔ q ∈ s.proposals ∧ q.number ≠ number := by
    simp
  have hfree : ∀ ch' n, ¬ BeingWritten (completedState number all arr judged s) ch' n := by
    rintro ch' n ⟨plans, results, hb⟩
    cases hb
  refine ⟨h.numbers.sublist (List.filter_sublist.map _), fun hr => hof.partnersLaw hm hu (h.partners hr),
    ⟨hnodup, fun ch' n => ?_, fun ch' n hb => hfree ch' n hb.2⟩, fun q hq => ?_, ?_, nofun, nofun⟩
  · rw [or_iff_left (hfree ch' n)]
    constructor
    · intro hq
      obtain ⟨q, hq', rfl, hq''⟩ := (hopen ch' n).1 (.inl hq)
      refine ⟨q, hmem.2 ⟨hq', fun hqn => ?_⟩, rfl, hq''⟩
      obtain rfl := h.numbers.eq hq' hp (hqn.trans hn.symm)
      obtain rfl : ch' = ch := by simpa using hq''.symm.trans hstate
      exact hboth ch' q.number ⟨hq, hn.symm ▸ hbeing⟩
    · rintro ⟨q, hq, rfl, hq''⟩
      obtain ⟨hq, hqn⟩ := hmem.1 hq
      refine ((hopen ch' q.number).2 ⟨q, hq, rfl, hq''⟩).resolve_right ?_
      rintro ⟨plans', results', hb⟩
      obtain ⟨-, hnn, -⟩ : ch = ch' ∧ number = q.number ∧ _ := by simpa using hw.symm.trans hb
      exact hqn hnn.symm
  · obtain ⟨hq, hqn⟩ := hmem.1 hq
    obtain ⟨hne, hqfit⟩ := hfit q hq
    refine ⟨hne, hqfit.congr fun c hc => (hof.placed hm hu).entryAt_ne hm hu fun d hd hk => ?_⟩
    obtain ⟨c', hc', hcd⟩ := hof.change hd
    have := proposal_eq_of_key hprop hq hp (List.mem_map_of_mem hc) (hk ▸ hcd.key ▸ List.mem_map_of_mem hc')
    exact hqn (this ▸ hn)
  · have hlen := hof.length_le hm hu
    have hcreates := writingCreatesOf_remove h.numbers hp (isWriting_iff.2 ⟨ch, hstate⟩)
    rw [writingCreates_eq] at hroom ⊢
    show (applyResults (tableResults s.freed all) s.slots).length +
      writingCreatesOf (s.proposals.filter fun q => q.number != number) ≤ 2048
    rw [hn] at hcreates
    omega

/-- What follows the effects on the table: the event's end, the answer, and the next item. -/
theorem endItem_kept (ch : ChannelNo) (number : Nat) (plans : List SlotPlan) (results : List Bool) (p : SlotPlan)
    (o : SlotOutcome) (s : State) : ∃ judged,
    Keeps (completedState number (finalResults plans results p o s.array) (writeSlotPlan p o s.array).1 judged s)
      (endItem ch number plans results p o s) := by
  refine ⟨(applyCompletion (finalResults plans results p o s.array)
    { s with array := (writeSlotPlan p o s.array).1 }).stations, ?_⟩
  unfold endItem completeItem
  rw [removeProposal_applyCompletion rfl]
  exact (((Keeps.refl _).settle _).trans (deliver_keeps _ _ _ _)).trans (.takeItem _)

theorem itemCompletion_proposalLaws {o : SlotOutcome} (h : exec (.proposalItemCompletion o) s = .next t)
    (hp : ProposalLaw s) (hd : DraftLaw s) : ProposalLaw t ∧ DraftLaw t := by
  rcases execProposalItemCompletion_cases h with rfl | ⟨ch, number, plans, results, p, -, -, -, rfl⟩
  · exact ⟨hp, hd⟩
  · obtain ⟨judged, hk⟩ := endItem_kept ch number plans results p o s
    exact ⟨hk.proposals (proposalLaw_sublist hp List.filter_sublist rfl rfl) hd, hk.drafts hd⟩

theorem itemCompletion_writingLaws {o : SlotOutcome} (h : exec (.proposalItemCompletion o) s = .next t)
    (hprop : ProposalLaw s) (htab : TableLaw s) (hwriting : WritingLaw s) (hw : WriterLaws s) :
    WritingLaw t ∧ WorkLaw t := by
  rcases execProposalItemCompletion_cases h with rfl | ⟨ch, number, plans, results, p, hjob, hlen, -, rfl⟩
  · exact ⟨hwriting, hw.work⟩
  · obtain ⟨judged, hk⟩ := endItem_kept ch number plans results p o s
    have ht := hk.writer (hw.complete hjob hprop htab (finalResults_plans p o s.array hlen) _ judged)
    refine ⟨writingLaw_iff.2 ⟨ht.queued, fun hr => ?_⟩, ht.work⟩
    rw [(endItem_to ch number plans results p o s).phase] at hr
    obtain ⟨-, -, hnone, -⟩ := (writingLaw_iff.1 hwriting).2 hr
    rw [hnone] at hjob
    cases hjob

/-! ### The module resets (R87, R88, R182) -/

/-- As every module reset leaves the module: nothing open, queued or written, the numbering begun afresh, and no
draft. -/
structure Blank (t : State) : Prop where
  nothing : NothingOpen t
  lastNumber : t.lastNumber = 0
  drafts : ∀ ch, (sel t.channels ch).draft = none

theorem Blank.proposalLaws (h : Blank t) : ProposalLaw t ∧ DraftLaw t := by
  obtain ⟨⟨hp, -⟩, hl, hd⟩ := h
  refine ⟨?_, fun ch l hl => ?_⟩
  · unfold ProposalLaw
    rw [hp, hl]
    exact ⟨by simp, .nil, by simp, .nil, .nil, by simp⟩
  · rw [hd ch] at hl
    cases hl

theorem queueLaw_of_nothingOpen (h : NothingOpen t) : QueueLaw t := by
  obtain ⟨hp, hq, hw, -⟩ := h
  unfold QueueLaw BeingWritten
  rw [hp, hq, hw]
  simp

/-- A table of slots of the array has 2048 entries at most. -/
theorem length_of_workingWf {m : SlotMap Entry} (hm : workingWf m = true) : m.length ≤ 2048 := by
  have hnodup : (m.map Prod.fst).Nodup := (slotsRise_pairwise hm).imp Nat.ne_of_lt
  have hsub : m.map Prod.fst ⊆ List.range 2048 := by
    intro n hn
    obtain ⟨x, hx, rfl⟩ := List.mem_map.1 hn
    exact List.mem_range.2 (slotsRise_lt hm x hx)
  simpa using (hnodup.subperm hsub).length_le

theorem workLaw_of_nothingOpen (h : NothingOpen t) (hs : StoreLaw t) : WorkLaw t := by
  obtain ⟨hp, -, hw, -⟩ := h
  unfold WorkLaw
  rw [hp, hw, writingCreates_eq, hp]
  exact ⟨by simp, length_of_workingWf hs.1, nofun, nofun⟩

theorem Blank.writingLaws (h : Blank t) (hs : StoreLaw t) : WritingLaw t ∧ WorkLaw t :=
  ⟨writingLaw_iff.2 ⟨queueLaw_of_nothingOpen h.nothing, fun _ => h.nothing⟩, workLaw_of_nothingOpen h.nothing hs⟩

/-- A state whose list, queue, writer, sections and channels are those of the reset. -/
theorem Blank.of_reset (hp : t.proposals = State.reset.proposals := by rfl)
    (hq : t.queue = State.reset.queue := by rfl) (hw : t.writer = State.reset.writer := by rfl)
    (hs : t.sections = State.reset.sections := by rfl) (hl : t.lastNumber = State.reset.lastNumber := by rfl)
    (hc : t.channels = State.reset.channels := by rfl) : Blank t where
  nothing := ⟨hp, hq, hw, fun sec => by rw [hs]; simp [State.reset]⟩
  lastNumber := hl
  drafts ch := by rw [hc]; simp [State.reset, Channel.fresh]

theorem execPowerOn_blank {i : Interruption} {l : Bank 4 Bool} (h : exec (.powerOn i l) s = .next t) : Blank t := by
  cases h
  split <;> exact .of_reset

theorem execBusReset_blank {i : Interruption} {l : Bank 4 Bool} (h : exec (.busReset i l) s = .next t) :
    WritingKept s t ∨ Blank t := by
  cases h
  split
  · exact .inl (.of_drafts id)
  · exact .inr .of_reset

theorem execBusResetLineAsserted_blank {i : Interruption} (h : exec (.busResetLineAsserted i) s = .next t) :
    WritingKept s t ∨ Blank t := by
  cases h
  split
  · exact .inl (.of_drafts id)
  · exact .inr .of_reset

theorem execLogicSupplyLoss_blank {i : Interruption} (h : exec (.logicSupplyLoss i) s = .next t) : Blank t := by
  cases h
  exact .of_reset

/-! ### The end of the scan (R92) -/

theorem recomputeAll_keeps (s : State) : Keeps s (recomputeAll s) := by
  unfold recomputeAll
  generalize List.finRange 4 = l
  induction l generalizing s with
  | nil => exact .refl s
  | cons sec l ih => exact ((Keeps.refl s).recompute sec).trans (ih _)

theorem flagFaults_keeps (s : State) : Keeps s (flagFaults s) := by
  unfold flagFaults
  split
  · exact .refl s
  · exact .raise _ s

theorem execStartUpScanEnd_eq {w : ScanWrites} (h : exec (.startUpScanEnd w) s = .next t) :
    t = s ∨ (s.phase = .scanning ∧ t = flagFaults (openModule (recomputeAll (loadArray w s)))) := by
  have h : (if s.phase = .scanning then flagFaults (openModule (recomputeAll (loadArray w s))) else s) = t :=
    Host.Outcome.next.inj h
  split at h
  · next hphase => exact .inr ⟨hphase, h.symm⟩
  · exact .inl h.symm

theorem openModule_proposalLaw (s : State) : ProposalLaw (openModule s) ↔ ProposalLaw s := by
  rw [openModule_eq]
  exact proposalLaw_congr rfl rfl rfl

theorem openModule_draftLaw (s : State) : DraftLaw (openModule s) ↔ DraftLaw s := by
  rw [openModule_eq]
  exact draftLaw_congr rfl

theorem WriterLaws.openModule (h : WriterLaws s) (hpart : PartnersLaw s.slots) : WriterLaws (openModule s) := by
  rw [openModule_eq]
  exact ⟨h.numbers, fun _ => hpart, (queueLaw_congr rfl rfl rfl).2 h.queued, (workLaw_congr rfl rfl rfl rfl).2 h.work⟩

theorem openModule_phase (s : State) : (openModule s).phase = .running := by
  rw [openModule_eq]

theorem loadArray_proposals (w : ScanWrites) (s : State) : (loadArray w s).proposals = s.proposals := by
  simp only [loadArray]
theorem loadArray_lastNumber (w : ScanWrites) (s : State) : (loadArray w s).lastNumber = s.lastNumber := by
  simp only [loadArray]
theorem loadArray_nextStamp (w : ScanWrites) (s : State) : (loadArray w s).nextStamp = s.nextStamp := by
  simp only [loadArray]
theorem loadArray_queue (w : ScanWrites) (s : State) : (loadArray w s).queue = s.queue := by
  simp only [loadArray]

theorem loadArray_proposalLaws (w : ScanWrites) (hp : ProposalLaw s) (hd : DraftLaw s) :
    ProposalLaw (loadArray w s) ∧ DraftLaw (loadArray w s) :=
  ⟨(proposalLaw_congr (loadArray_proposals w s) (loadArray_lastNumber w s) (loadArray_nextStamp w s)).2 hp,
    (draftLaw_congr (loadArray_channels w s)).2 hd⟩

/-- The scan's load at a module with nothing open, queued or written. -/
theorem loadArray_writerLaws (w : ScanWrites) (hs : StoreLaw s) (hu : KeysUnique s.slots) (hnone : NothingOpen s) :
    WriterLaws (loadArray w s) := by
  obtain ⟨hp, hq, hw, -⟩ := hnone
  refine ⟨?_, fun _ => ?_, ?_, ?_⟩
  · unfold NumbersUnique
    rw [loadArray_proposals, hp]
    exact .nil
  · rw [loadArray_slots]
    exact partnersLaw_partnerPass hu
  · unfold QueueLaw BeingWritten
    rw [loadArray_proposals, loadArray_queue, loadArray_writer, hp, hq, hw]
    simp
  · unfold WorkLaw
    rw [writingCreates_eq, loadArray_proposals, loadArray_slots, loadArray_writer, hp, hw]
    exact ⟨by simp, length_of_workingWf (workingWf_partnerPass hs.1), nofun, nofun⟩

/-- What follows the scan's load: the sections' indices recomputed, the module opened, the faults flagged. -/
theorem scanned_proposalLaws (hp : ProposalLaw s) (hd : DraftLaw s) :
    ProposalLaw (flagFaults (openModule (recomputeAll s))) ∧ DraftLaw (flagFaults (openModule (recomputeAll s))) := by
  have hall := recomputeAll_keeps s
  have hp := (openModule_proposalLaw _).2 (hall.proposals hp hd)
  have hd := (openModule_draftLaw _).2 (hall.drafts hd)
  exact ⟨(flagFaults_keeps _).proposals hp hd, (flagFaults_keeps _).drafts hd⟩

theorem scanned_writerLaws (h : WriterLaws s) (hpart : PartnersLaw s.slots) :
    WriterLaws (flagFaults (openModule (recomputeAll s))) := by
  have hall := (recomputeAll_keeps s).writer h
  rw [← (recomputeAll_frame s).slots] at hpart
  exact (flagFaults_keeps _).writer (hall.openModule hpart)

theorem scanned_phase (s : State) : (flagFaults (openModule (recomputeAll s))).phase = .running := by
  rw [(flagFaults_frame _).phase, openModule_phase]

theorem scanEnd_proposalLaws {w : ScanWrites} (h : exec (.startUpScanEnd w) s = .next t) (hp : ProposalLaw s)
    (hd : DraftLaw s) : ProposalLaw t ∧ DraftLaw t := by
  rcases execStartUpScanEnd_eq h with ht | ⟨-, ht⟩
  · rw [ht]
    exact ⟨hp, hd⟩
  · have ⟨hp, hd⟩ := loadArray_proposalLaws w hp hd
    rw [ht]
    exact scanned_proposalLaws hp hd

/-- R92: the scan ends with no proposal open or being written, and READY set. -/
theorem scanEnd_writingLaws {w : ScanWrites} (h : exec (.startUpScanEnd w) s = .next t) (hs : StoreLaw s)
    (htab : TableLaw s) (hwriting : WritingLaw s) (hwork : WorkLaw s) : WritingLaw t ∧ WorkLaw t := by
  rcases execStartUpScanEnd_eq h with ht | ⟨hphase, ht⟩
  · rw [ht]
    exact ⟨hwriting, hwork⟩
  · obtain ⟨-, hu, -⟩ := htab
    have hnone := (writingLaw_iff.1 hwriting).2 (by rw [hphase]; exact Phase.noConfusion)
    have hpart : PartnersLaw (loadArray w s).slots := by
      rw [loadArray_slots]
      exact partnersLaw_partnerPass hu
    have hlaws := scanned_writerLaws (loadArray_writerLaws w hs hu hnone) hpart
    rw [ht]
    exact ⟨writingLaw_iff.2 ⟨hlaws.queued, fun hr => absurd (scanned_phase _) hr⟩, hlaws.work⟩

end Sys2Proof.Machine
end

section
/-! PROOFS. O60: every step keeps the laws of the proposal list, of the drafts, of writing and of the writer's work (R38,
R50 to R53, R68, R74, R79, R88). -/

namespace Sys2Proof.Machine

variable {s t : State}

theorem WritingKept.writingLaws (h : WritingKept s t) (hwriting : WritingLaw s) (hw : WriterLaws s) :
    WritingLaw t ∧ WorkLaw t := by
  have ht := h.writer hw
  refine ⟨writingLaw_iff.2 ⟨ht.queued, fun hr => ?_⟩, ht.work⟩
  rw [h.phase] at hr
  exact h.idle hr ((writingLaw_iff.1 hwriting).2 hr)

theorem WritingKept.proposalLaws (h : WritingKept s t) (hp : ProposalLaw s) (hd : DraftLaw s) :
    ProposalLaw t ∧ DraftLaw t :=
  ⟨h.proposals hp hd, h.drafts hd⟩

/-- R38 and R51 to R53 at every command. -/
theorem exec_proposalLaws {c : Instr} (h : exec c s = .next t) (hp : ProposalLaw s) (hd : DraftLaw s) :
    ProposalLaw t ∧ DraftLaw t := by
  cases hc : isStoreEvent c with
  | false => exact (exec_kept hc h).proposalLaws hp hd
  | true =>
    cases c <;> simp only [isStoreEvent, reduceCtorEq] at hc
    case recordWriteCompletion o => exact (recordCompletion_kept h).proposalLaws hp hd
    case slotWriteCompletion o =>
      rcases execSlotWriteCompletion_cases h with rfl | ⟨_, _, _, _, _, -, -, rfl⟩ <;> exact ⟨hp, hd⟩
    case proposalItemCompletion o => exact itemCompletion_proposalLaws h hp hd
    case powerOn i l => exact (execPowerOn_blank h).proposalLaws
    case busReset i l => exact (execBusReset_blank h).elim (·.proposalLaws hp hd) Blank.proposalLaws
    case busResetLineAsserted i => exact (execBusResetLineAsserted_blank h).elim (·.proposalLaws hp hd) Blank.proposalLaws
    case logicSupplyLoss i => exact (execLogicSupplyLoss_blank h).proposalLaws
    case startUpScanEnd w => exact scanEnd_proposalLaws h hp hd

/-- The laws that R74 rests on, from those of the store, the table and the list. -/
theorem writerLaws_of (hprop : ProposalLaw s) (htab : TableLaw s) (hwriting : WritingLaw s) (hwork : WorkLaw s) :
    WriterLaws s where
  numbers := hprop.2.1
  partners hr := (htab.2.2.2.2 hr).1
  queued := (writingLaw_iff.1 hwriting).1
  work := hwork

/-- R74, and what it rests on, at every command. -/
theorem exec_writingLaws {c : Instr} (h : exec c s = .next t) (hs : StoreLaw s) (hprop : ProposalLaw s)
    (htab : TableLaw s) (hwriting : WritingLaw s) (hwork : WorkLaw s) : WritingLaw t ∧ WorkLaw t := by
  have hw := writerLaws_of hprop htab hwriting hwork
  have hs' := exec_storeLaw h hs
  cases hc : isStoreEvent c with
  | false => exact (exec_kept hc h).writingLaws hwriting hw
  | true =>
    cases c <;> simp only [isStoreEvent, reduceCtorEq] at hc
    case recordWriteCompletion o => exact (recordCompletion_kept h).writingLaws hwriting hw
    case slotWriteCompletion o => exact slotCompletion_writingLaws h hs hprop htab hwriting hwork
    case proposalItemCompletion o => exact itemCompletion_writingLaws h hprop htab hwriting hw
    case powerOn i l => exact (execPowerOn_blank h).writingLaws hs'
    case busReset i l => exact (execBusReset_blank h).elim (·.writingLaws hwriting hw) (·.writingLaws hs')
    case busResetLineAsserted i =>
      exact (execBusResetLineAsserted_blank h).elim (·.writingLaws hwriting hw) (·.writingLaws hs')
    case logicSupplyLoss i => exact (execLogicSupplyLoss_blank h).writingLaws hs'
    case startUpScanEnd w => exact scanEnd_writingLaws h hs htab hwriting hwork

/-- Settles O60: every command but the store's own keeps the laws by `exec_kept`; the store's own do so one by one, and a
millisecond by `tick_kept`. -/
theorem stepKeepsProposalLaw : Obligations.StepKeepsProposalLaw := by
  refine ⟨fun s t hp hd h => ?_, fun s t hs hprop htab hwriting hwork h => ?_⟩
  · rcases step_cases h with ⟨c, rest, -, h⟩ | rfl
    · exact exec_proposalLaws h hp hd
    · exact (tick_kept s).proposalLaws hp hd
  · rcases step_cases h with ⟨c, rest, -, h⟩ | rfl
    · exact exec_writingLaws h hs hprop htab hwriting hwork
    · exact (tick_kept s).writingLaws hwriting (writerLaws_of hprop htab hwriting hwork)

end Sys2Proof.Machine
end

section
/-! PROOFS. O2: with no command waiting, a millisecond passes and nothing but the timers changes. -/

namespace Sys2Proof.Machine

theorem step_idle {s : State} (h : s.pending = []) : step s = .next s.tick := by
  unfold step
  rw [h]

/-- Settles O2: field by field, `State.tick` counts down what the statement counts down. -/
theorem idleStepCountsTimers : Obligations.IdleStepCountsTimers := fun _ h => (step_idle h).trans rfl

end Sys2Proof.Machine
end

section
/-! SUPPORT. Requests whose owning block does beside their own arrival what it does without it. -/

namespace Sys2Proof.Machine

/-- The owning block of a request does not see that the request has arrived. -/
def ActsBesideArrival (r : RequestSpec) (ch : ChannelNo) (a : Args) : Prop :=
  ∀ req s, r.run ch a (arrive ch req s) = (arrive ch req (r.run ch a s).1, (r.run ch a s).2)

variable {ch : ChannelNo} {a : Args} {s t : State} {code : AnswerCode} {result : List Byte}

/-- Such a request, past the channel's checks, does what its owning block does, and is answered. -/
theorem ActsBesideArrival.next {r : RequestSpec} {roles : List Role} (hr : ActsBesideArrival r ch a)
    (hroles : ∀ x, r.admits x = true ↔ x ∈ roles) (hp : Passes r.used roles ch a s)
    (hrun : r.run ch a s = (t, .now code result)) :
    (Host.Outcome.next (takeRequest r ch a s) : Host.Outcome State Fault Refusal) =
      .next (answered ch code result (settle s t)) :=
  congrArg _ (hp.answer hroles (by rw [hr, hrun]))

theorem settle_setDraft (s : State) (ch : ChannelNo) (d : Option (List Change)) :
    settle s (s.setDraft ch d) = s.setDraft ch d := settle_channel s ch _

end Sys2Proof.Machine
end

section
/-! PROOFS. O14 to O16: a draft begun and discarded, its changes added and amended (R40 to R43). -/

namespace Sys2Proof.Machine

variable {ch : ChannelNo} {a : Args} {s t : State} {code : AnswerCode} {result : List Byte} {l : List Change}
  {c c' : Change} {f : Change → Option Change}

/-- A request whose owning block replaces the channel's draft (R40). -/
theorem next_of_setDraft {r : RequestSpec} {d : Option (List Change)} (hadmits : r.admits = operatorOrEngineer)
    (hr : r.run ch a = fun s => (s.setDraft ch d, .done [0])) (hp : Passes r.used [.operator, .engineer] ch a s) :
    (Host.Outcome.next (takeRequest r ch a s) : Host.Outcome State Fault Refusal) =
      .next (answered ch .done [0] (s.setDraft ch d)) := by
  have hbeside : ActsBesideArrival r ch a := fun req s => by
    rw [hr]
    dsimp only
    rw [setDraft_arrive]
  rw [hbeside.next (hadmits ▸ operatorOrEngineer_iff) hp (congrFun hr s), settle_setDraft]

/-- Settles O14: both replace the channel's draft, whatever it is. -/
theorem draftBeginDiscard : Obligations.DraftBeginDiscard := fun _ _ _ hp =>
  ⟨next_of_setDraft (r := draftBeginRequest) rfl rfl hp, next_of_setDraft (r := draftDiscardRequest) rfl rfl hp⟩

/-! ### A change added (R41) -/

theorem addChange_noDraft (h : s.draft ch = none) : addChange ch c s = (s, .refuse .noDraft) := by
  simp only [addChange, h]

theorem addChange_full (h : s.draft ch = some l) (hl : 2 ≤ l.length) : addChange ch c s = (s, .refuse .draftFull) := by
  simp only [addChange, h, if_pos hl]

theorem any_key_eq : (l.any fun d => d.key == c.key) = true ↔ c.key ∈ keysOf l := by
  simp [keysOf]

theorem addChange_duplicate (h : s.draft ch = some l) (hl : l.length < 2) (hk : c.key ∈ keysOf l) :
    addChange ch c s = (s, .refuse .duplicateKey) := by
  simp only [addChange, h, if_neg (Nat.not_le.2 hl), if_pos (any_key_eq.2 hk)]

theorem addChange_added (h : s.draft ch = some l) (hl : l.length < 2) (hk : c.key ∉ keysOf l) :
    addChange ch c s = (s.setDraft ch (some (l ++ [c])), .done [byteOf (l.length + 1)]) := by
  simp only [addChange, h, if_neg (Nat.not_le.2 hl), if_neg (mt any_key_eq.1 hk)]

theorem addChange_arrive (ch : ChannelNo) (c : Change) (req : Request) (s : State) :
    addChange ch c (arrive ch req s) = (arrive ch req (addChange ch c s).1, (addChange ch c s).2) := by
  unfold addChange
  simp only [draft_arrive, setDraft_arrive]
  cases s.draft ch with
  | none => rfl
  | some l =>
    dsimp only
    split
    · rfl
    · split <;> rfl

/-- The requests of R41 that pass check 1, with the bytes they use and the change each adds. -/
def AddsChange (ch : ChannelNo) (a : Args) (i : Instr) (used : Nat) (c : Change) : Prop :=
  (i = .draftSet ch a ∧ used = 10 ∧ ∃ k, keyArg a = some k ∧
    c = Change.set k (argHalf a 4) (argWord a 6) .unchanged .unchanged none) ∨
  (i = .draftCreate ch a ∧ used = 9 ∧ ∃ k cls, keyArg a = some k ∧ classOf (argByte a 8).toNat = some cls ∧
    c = Change.create k (argWord a 4) .unchanged .unchanged none cls none) ∨
  (i = .draftRetire ch a ∧ used = 6 ∧ ∃ k, keyArg a = some k ∧ c = Change.retire k (argHalf a 4))

/-- An owning block that adds a change acts beside the arrival. -/
theorem actsBeside_of_addChange {r : RequestSpec} (hr : r.run ch a = addChange ch c) : ActsBesideArrival r ch a :=
  fun req s => by rw [hr, addChange_arrive]

theorem exec_addChange {i : Instr} {used : Nat} (hi : AddsChange ch a i used c)
    (hp : Passes used [.operator, .engineer] ch a s) (h : addChange ch c s = (t, .now code result)) :
    exec i s = .next (answered ch code result (settle s t)) := by
  rcases hi with ⟨rfl, rfl, k, hk, hc⟩ | ⟨rfl, rfl, k, cls, hk, hcls, hc⟩ | ⟨rfl, rfl, k, hk, hc⟩
  · have hr : draftSetRequest.run ch a = addChange ch c := funext fun s => by
      simp only [draftSetRequest, runDraftSet, hk, hc]
    exact (actsBeside_of_addChange hr).next operatorOrEngineer_iff hp (hr ▸ h)
  · have hr : draftCreateRequest.run ch a = addChange ch c := funext fun s => by
      simp only [draftCreateRequest, runDraftCreate, hk, hcls, hc]
    exact (actsBeside_of_addChange hr).next operatorOrEngineer_iff hp (hr ▸ h)
  · have hr : draftRetireRequest.run ch a = addChange ch c := funext fun s => by
      simp only [draftRetireRequest, runDraftRetire, hk, hc]
    exact (actsBeside_of_addChange hr).next operatorOrEngineer_iff hp (hr ▸ h)

/-- Settles O15: the checks of R41 in their order, by the outcomes of `addChange`. -/
theorem draftAdds : Obligations.DraftAdds := by
  intro ch a s i used c hi hp
  refine ⟨fun h => ?_, fun l h => ⟨fun hl => ?_, fun hl hk => ?_, fun hl hk => ?_⟩⟩
  · rw [exec_addChange hi hp (addChange_noDraft h), settle_self]
  · rw [exec_addChange hi hp (addChange_full h hl), settle_self]
  · rw [exec_addChange hi hp (addChange_duplicate h hl hk), settle_self]
  · rw [exec_addChange hi hp (addChange_added h hl hk), settle_setDraft]

/-! ### The current change amended (R42, R43) -/

theorem amend_noDraft (h : s.draft ch = none) : amend ch f s = (s, .refuse .noDraft) := by
  simp only [amend, h]

theorem amend_noChange (h : s.draft ch = some []) : amend ch f s = (s, .refuse .noChange) := by
  simp only [amend, h, List.getLast?_nil]

theorem amend_refused (h : s.draft ch = some (l ++ [c])) (hf : f c = none) :
    amend ch f s = (s, .refuse .badArgument) := by
  simp only [amend, h, List.getLast?_concat, hf]

theorem amend_last (h : s.draft ch = some (l ++ [c])) (hf : f c = some c') :
    amend ch f s = (s.setDraft ch (some (l ++ [c'])), .done [byteOf (l.length + 1)]) := by
  simp only [amend, h, List.getLast?_concat, hf, List.dropLast_concat, List.length_append, List.length_singleton]

theorem amend_arrive (ch : ChannelNo) (f : Change → Option Change) (req : Request) (s : State) :
    amend ch f (arrive ch req s) = (arrive ch req (amend ch f s).1, (amend ch f s).2) := by
  unfold amend
  simp only [draft_arrive, setDraft_arrive]
  cases s.draft ch with
  | none => rfl
  | some l =>
    dsimp only
    cases l.getLast? with
    | none => rfl
    | some c =>
      dsimp only
      cases f c <;> rfl

/-- An owning block that amends the current change acts beside the arrival. -/
theorem actsBeside_of_amend {r : RequestSpec} (hr : r.run ch a = amend ch f) : ActsBesideArrival r ch a :=
  fun req s => by rw [hr, amend_arrive]

/-- What the command `i` answers, and makes of the draft, where its owning block amends the current change by `f`. -/
structure Amends (i : Instr) (f : Change → Option Change) (ch : ChannelNo) (s : State) : Prop where
  noDraft : s.draft ch = none → exec i s = .next (answered ch .noDraft [] s)
  noChange : s.draft ch = some [] → exec i s = .next (answered ch .noChange [] s)
  amended : ∀ {l c c'}, s.draft ch = some (l ++ [c]) → f c = some c' →
    exec i s = .next (answered ch .done [byteOf (l.length + 1)] (s.setDraft ch (some (l ++ [c']))))
  refused : ∀ {l c}, s.draft ch = some (l ++ [c]) → f c = none → exec i s = .next (answered ch .badArgument [] s)

theorem Amends.of_run {i : Instr} {r : RequestSpec} (hi : exec i s = .next (takeRequest r ch a s))
    (hadmits : r.admits = operatorOrEngineer) (hp : Passes r.used [.operator, .engineer] ch a s)
    (hr : r.run ch a = amend ch f) : Amends i f ch s := by
  have hnext : ∀ {t code result}, amend ch f s = (t, .now code result) →
      exec i s = .next (answered ch code result (settle s t)) := fun h =>
    hi.trans ((actsBeside_of_amend hr).next (hadmits ▸ operatorOrEngineer_iff) hp (hr ▸ h))
  refine ⟨fun h => ?_, fun h => ?_, fun h hf => ?_, fun h hf => ?_⟩
  · rw [hnext (amend_noDraft h), settle_self]
  · rw [hnext (amend_noChange h), settle_self]
  · rw [hnext (amend_last h hf), settle_setDraft]
  · rw [hnext (amend_refused h hf), settle_self]

theorem draftBounds_amends {low high : BoundField} (hp : Passes 9 [.operator, .engineer] ch a s)
    (hlow : boundOf ((argByte a 0).toNat % 4) (argWord a 1) = some low)
    (hhigh : boundOf ((argByte a 0).toNat / 4) (argWord a 5) = some high) :
    Amends (.draftBounds ch a) (Change.withBounds low high) ch s :=
  .of_run (r := draftBoundsRequest) rfl rfl hp (funext fun s => by
    simp only [draftBoundsRequest, runDraftBounds, hlow, hhigh])

theorem draftTolerance_amends (hp : Passes 2 [.operator, .engineer] ch a s) :
    Amends (.draftTolerance ch a) (Change.withTolerance (argHalf a 0)) ch s :=
  .of_run (r := draftToleranceRequest) rfl rfl hp rfl

theorem draftPartner_amends {q : ParamNo} (hp : Passes 2 [.operator, .engineer] ch a s)
    (hq : paramOf (argHalf a 0).toNat = some q) : Amends (.draftPartner ch a) (Change.withPartner q) ch s :=
  .of_run (r := draftPartnerRequest) rfl rfl hp (funext fun s => by simp only [draftPartnerRequest, runDraftPartner, hq])

theorem withPartner_eq_none {q : ParamNo} (h : c.kind ≠ .create ∨ q = c.key.param) : c.withPartner q = none := by
  cases c with
  | set => rfl
  | create k => exact if_pos (h.resolve_left (by simp [Change.kind]))
  | retire => rfl

/-- Settles O16: each request amends the change added last by its own function, which gives nothing where the field is
not the change's. -/
theorem draftAmends : Obligations.DraftAmends := by
  refine fun ch a s => ⟨fun l low high hp hlow hhigh => ?_, fun l hp => ?_, fun l q hp hq => ?_⟩
  · have h := draftBounds_amends hp hlow hhigh
    exact ⟨h.noDraft, h.noChange, fun _ _ _ _ _ _ hd => h.amended hd rfl, fun _ _ _ _ _ _ _ hd => h.amended hd rfl,
      fun _ _ hd => h.refused hd rfl⟩
  · have h := draftTolerance_amends hp
    exact ⟨h.noDraft, h.noChange, fun _ _ _ _ _ _ hd => h.amended hd rfl, fun _ _ _ _ _ _ _ hd => h.amended hd rfl,
      fun _ _ hd => h.refused hd rfl⟩
  · have h := draftPartner_amends hp hq
    exact ⟨h.noDraft, h.noChange, fun _ _ _ _ _ _ _ hd hne => h.amended hd (if_neg hne),
      fun _ hd hc => h.refused hd (withPartner_eq_none hc)⟩

end Sys2Proof.Machine
end

section
/-! PROOFS. O17: DRAFT_SUBMIT refused and accepted, the required approver, and the number (R44, R45, R50, R52, R54). -/

namespace Sys2Proof.Machine

variable {ch : ChannelNo} {a : Args} {s t : State} {code : AnswerCode} {result : List Byte} {c : Change}
  {rest l : List Change} {role : Role}

/-! ### The checks -/

/-- Check 2 on change 0 is the first of all. -/
theorem submissionChecks_role {r : Reply} (h : checkRole s role 0 c = some r) :
    submissionChecks s role (c :: rest) = some r := by
  rw [submissionChecks, checkEach, h, Option.some_or, Option.some_or]

theorem checkRole_denied {i : Nat} (h : ¬ (c.valueOnly = true ∧ classAt s.slots c = some .tunable)) :
    checkRole s .operator i c = some (.now .denied [1, 0, byteOf i]) := by
  have hplain : plainTrim s.slots c = false := by
    rw [← Bool.not_eq_true, plainTrim_iff]
    exact h
  unfold checkRole
  rw [hplain]
  rfl

theorem checkRole_releaseClosed {i : Nat} (hcls : classAt s.slots c = some .fixed) (hrel : s.release = none) :
    checkRole s .engineer i c = some (.now .releaseClosed [byteOf i]) := by
  unfold checkRole
  rw [releaseBars_iff.2 ⟨hcls, hrel⟩]
  rfl

/-! ### The submission -/

theorem createProposal_arrive (ch : ChannelNo) (l : List Change) (req : Request) (s : State) :
    createProposal ch l (arrive ch req s) = arrive ch req (createProposal ch l s) := by
  have hnew : (arrive ch req s).newProposal ch l = s.newProposal ch l := by
    unfold State.newProposal
    rw [role_arrive]
    rfl
  unfold createProposal
  rw [hnew]
  exact setDraft_arrive ch req
    { s with
      proposals := s.proposals ++ [s.newProposal ch l]
      lastNumber := s.newNumber
      nextStamp := s.nextStamp + 1 } none

theorem draftSubmit_actsBeside (ch : ChannelNo) (a : Args) : ActsBesideArrival draftSubmitRequest ch a := by
  intro req s
  have hchecks : ∀ role l, submissionChecks (arrive ch req s) role l = submissionChecks s role l := fun _ _ => rfl
  simp only [draftSubmitRequest, runDraftSubmit, draft_arrive, role_arrive, hchecks, createProposal_arrive]
  cases s.draft ch with
  | none => rfl
  | some l =>
    cases l with
    | nil => rfl
    | cons c rest =>
      dsimp only
      cases submissionChecks s (s.role ch) (c :: rest) <;> rfl

theorem exec_draftSubmit (hp : Passes 0 [.operator, .engineer] ch a s)
    (h : runDraftSubmit ch s = (t, .now code result)) :
    exec (.draftSubmit ch a) s = .next (answered ch code result (settle s t)) :=
  (draftSubmit_actsBeside ch a).next operatorOrEngineer_iff hp h

theorem runDraftSubmit_empty (h : s.draft ch = none ∨ s.draft ch = some []) :
    runDraftSubmit ch s = (s, .refuse .noDraft) := by
  rcases h with h | h <;> simp only [runDraftSubmit, h]

theorem runDraftSubmit_refused {r : Reply} (h : s.draft ch = some (c :: rest))
    (hr : submissionChecks s (s.role ch) (c :: rest) = some r) : runDraftSubmit ch s = (s, r) := by
  simp only [runDraftSubmit, h, hr]

theorem runDraftSubmit_accepted (h : s.draft ch = some (c :: rest))
    (hr : submissionChecks s (s.role ch) (c :: rest) = none) :
    runDraftSubmit ch s = (createProposal ch (c :: rest) s,
      .done ([byteOf s.newNumber, (requiredApprover s.slots (c :: rest)).byte] ++ numBytes s.access.lifetime)) := by
  simp only [runDraftSubmit, h, hr]

theorem exec_draftSubmit_refused (hp : Passes 0 [.operator, .engineer] ch a s) (h : s.draft ch = some (c :: rest))
    (hr : submissionChecks s (s.role ch) (c :: rest) = some (.now code result)) :
    exec (.draftSubmit ch a) s = .next (answered ch code result s) := by
  rw [exec_draftSubmit hp (runDraftSubmit_refused h hr), settle_self]

/-- The event of a creation sets PROPOSALS: the list has one proposal more. -/
theorem settle_createProposal (ch : ChannelNo) (l : List Change) (s : State) :
    settle s (createProposal ch l s) = (createProposal ch l s).raise ⟨true, false, false, false, false⟩ := by
  have hne : s.proposals.map Proposal.stamp ≠ (createProposal ch l s).proposals.map Proposal.stamp := fun he => by
    have hlen := congrArg List.length he
    simp [createProposal] at hlen
  rw [settle_proposal_event (s := s) (t := createProposal ch l s) rfl rfl rfl rfl rfl rfl, decide_eq_true hne]

/-! ### The required approver and the value-only SET (R54, R38) -/

theorem requiredApprover_plain {m : SlotMap Entry}
    (h : ∀ c ∈ l, c.valueOnly = true ∧ classAt m c = some .tunable) : requiredApprover m l = .engineerOrQuality :=
  if_pos (List.all_eq_true.2 fun c hc => plainTrim_iff.2 (h c hc))

theorem requiredApprover_other {m : SlotMap Entry}
    (h : ∃ c ∈ l, ¬ (c.valueOnly = true ∧ classAt m c = some .tunable)) : requiredApprover m l = .qualityOnly := by
  obtain ⟨c, hc, hplain⟩ := h
  exact if_neg fun hall => hplain (plainTrim_iff.1 (List.all_eq_true.1 hall c hc))

theorem valueOnly_iff : c.valueOnly = true ↔ ∃ k x v, c = .set k x v .unchanged .unchanged none := by
  cases c with
  | set k x v low high t => simp [Change.valueOnly, and_assoc]
  | create => simp [Change.valueOnly]
  | retire => simp [Change.valueOnly]

/-- R52: the numbers held are those of the open proposals. -/
theorem newNumber_eq {n : Nat} (hl : s.lastNumber ≤ 255) (hn : n ≤ 15)
    (hheld : ∀ j < n, ∃ p ∈ s.proposals, p.number = (s.lastNumber + j) % 255 + 1)
    (hfree : ∀ p ∈ s.proposals, p.number ≠ (s.lastNumber + n) % 255 + 1) :
    s.newNumber = (s.lastNumber + n) % 255 + 1 := by
  refine freeNumber_eq hl (Nat.le_succ_of_le hn) (fun j hj => List.mem_map.2 (hheld j hj)) fun hmem => ?_
  obtain ⟨p, hp, he⟩ := List.mem_map.1 hmem
  exact hfree p hp he

/-- Settles O17: the outcomes of `runDraftSubmit`, with the event that a new proposal is. -/
theorem draftSubmission : Obligations.DraftSubmission := by
  refine ⟨fun ch a s hp => ⟨fun h => ?_, fun c rest h => ⟨fun hrole hc => ?_, fun hrole hcls hrel => ?_,
    fun code result hr => exec_draftSubmit_refused hp h hr⟩⟩, fun ch a s c rest hp h hr => ?_,
    fun m l => ⟨requiredApprover_plain, requiredApprover_other⟩, fun c => valueOnly_iff,
    fun s n hl hn hheld hfree => newNumber_eq hl hn hheld hfree⟩
  · rw [exec_draftSubmit hp (runDraftSubmit_empty h), settle_self]
  · exact exec_draftSubmit_refused hp h (submissionChecks_role (hrole ▸ checkRole_denied hc))
  · exact exec_draftSubmit_refused hp h (submissionChecks_role (hrole ▸ checkRole_releaseClosed hcls hrel))
  · rw [exec_draftSubmit hp (runDraftSubmit_accepted h hr), settle_createProposal]
    rfl

end Sys2Proof.Machine
end

section
/-! PROOFS. O21: a proposal removed by rejection, withdrawal and expiry (R56, R58 to R61). -/

namespace Sys2Proof.Machine

variable {ch : ChannelNo} {a : Args} {s t : State} {code : AnswerCode} {result : List Byte} {p : Proposal} {n : Nat}

theorem argByte_toNat_ne_zero (h : argByte a n ≠ 0) : (argByte a n).toNat ≠ 0 :=
  fun h0 => h (BitVec.eq_of_toNat_eq h0)

/-! ### The removal -/

theorem removeProposal_arrive (ch : ChannelNo) (req : Request) (n : Nat) (s : State) :
    removeProposal n (arrive ch req s) = arrive ch req (removeProposal n s) := rfl

/-- The removal of an open proposal sets PROPOSALS: the list is shorter. -/
theorem settle_removeProposal (h : s.proposal n = some p) :
    settle s (removeProposal n s) = State.raise
      { s with proposals := s.proposals.filter fun q => q.number != p.number } ⟨true, false, false, false, false⟩ := by
  obtain ⟨hmem, rfl⟩ := mem_of_proposal h
  have hlt : (removeProposal p.number s).proposals.length < s.proposals.length :=
    List.length_filter_lt_length_iff_exists.2 ⟨p, hmem, by simp⟩
  have hne : s.proposals.map Proposal.stamp ≠ (removeProposal p.number s).proposals.map Proposal.stamp := fun he => by
    have hlen := congrArg List.length he
    rw [List.length_map, List.length_map] at hlen
    omega
  rw [settle_proposal_event (s := s) (t := removeProposal p.number s) rfl rfl rfl rfl rfl rfl, decide_eq_true hne]
  rfl

/-! ### REJECT (R59) -/

theorem qualifies_eq_false (hrole : s.role ch = .engineer) (hreq : p.required = .qualityOnly) :
    qualifies (s.role ch) p.required = false := by
  rw [hrole, hreq]
  rfl

theorem qualifies_eq_true (hmem : s.role ch ∈ [Role.engineer, .quality])
    (h : s.role ch = .quality ∨ p.required = .engineerOrQuality) : qualifies (s.role ch) p.required = true := by
  simp only [qualifies, Bool.or_eq_true, Bool.and_eq_true, beq_iff_eq]
  simp only [List.mem_cons, List.not_mem_nil, or_false] at hmem
  rcases h with h | h
  · exact .inl h
  · exact hmem.symm.imp_right fun he => ⟨he, h⟩

theorem reject_actsBeside (ch : ChannelNo) (a : Args) : ActsBesideArrival rejectRequest ch a := by
  intro req s
  have hprop : ∀ n, (arrive ch req s).proposal n = s.proposal n := fun _ => rfl
  simp only [rejectRequest, runReject, hprop, role_arrive, removeProposal_arrive]
  split
  · rfl
  · cases s.proposal (argByte a 0).toNat with
    | none => rfl
    | some p =>
      dsimp only
      split
      · rfl
      · split <;> rfl

theorem exec_reject (hp : Passes 1 [.engineer, .quality] ch a s) (h : runReject ch a s = (t, .now code result)) :
    exec (.reject ch a) s = .next (answered ch code result (settle s t)) :=
  (reject_actsBeside ch a).next engineerOrQuality_iff hp h

theorem runReject_noProposal (h0 : argByte a 0 ≠ 0) (h : s.proposal (argByte a 0).toNat = none) :
    runReject ch a s = (s, .refuse .noProposal) := by
  simp only [runReject, h, if_neg (argByte_toNat_ne_zero h0)]

theorem runReject_writing (h0 : argByte a 0 ≠ 0) (h : s.proposal (argByte a 0).toNat = some p)
    (hw : p.isWriting = true) : runReject ch a s = (s, .refuse .notAwaiting) := by
  simp only [runReject, h, if_neg (argByte_toNat_ne_zero h0), if_pos hw]

theorem runReject_awaiting (h0 : argByte a 0 ≠ 0) (h : s.proposal (argByte a 0).toNat = some p)
    (hw : p.isWriting = false) :
    runReject ch a s = if qualifies (s.role ch) p.required = true then (removeProposal (argByte a 0).toNat s, .done [])
      else (s, .now .denied [(s.role ch).byte, p.required.byte]) := by
  simp only [runReject, h, if_neg (argByte_toNat_ne_zero h0), hw]
  cases qualifies (s.role ch) p.required <;> rfl

/-! ### WITHDRAW (R58) -/

theorem withdraw_actsBeside (ch : ChannelNo) (a : Args) : ActsBesideArrival withdrawRequest ch a := by
  intro req s
  have hprop : ∀ n, (arrive ch req s).proposal n = s.proposal n := fun _ => rfl
  simp only [withdrawRequest, runWithdraw, hprop, role_arrive, removeProposal_arrive]
  split
  · rfl
  · cases s.proposal (argByte a 0).toNat with
    | none => rfl
    | some p =>
      dsimp only
      split
      · rfl
      · split <;> rfl

theorem exec_withdraw (hp : Passes 1 [.operator, .engineer, .quality] ch a s)
    (h : runWithdraw ch a s = (t, .now code result)) :
    exec (.withdraw ch a) s = .next (answered ch code result (settle s t)) :=
  (withdraw_actsBeside ch a).next signedOn_iff hp h

theorem runWithdraw_noProposal (h0 : argByte a 0 ≠ 0) (h : s.proposal (argByte a 0).toNat = none) :
    runWithdraw ch a s = (s, .refuse .noProposal) := by
  simp only [runWithdraw, h, if_neg (argByte_toNat_ne_zero h0)]

theorem runWithdraw_writing (h0 : argByte a 0 ≠ 0) (h : s.proposal (argByte a 0).toNat = some p)
    (hw : p.isWriting = true) : runWithdraw ch a s = (s, .refuse .notAwaiting) := by
  simp only [runWithdraw, h, if_neg (argByte_toNat_ne_zero h0), if_pos hw]

theorem runWithdraw_awaiting (h0 : argByte a 0 ≠ 0) (h : s.proposal (argByte a 0).toNat = some p)
    (hw : p.isWriting = false) :
    runWithdraw ch a s = if ch ≠ p.proposer ∧ s.role ch ≠ .quality then (s, deniedFor (s.role ch))
      else (removeProposal (argByte a 0).toNat s, .done []) := by
  simp only [runWithdraw, h, if_neg (argByte_toNat_ne_zero h0), hw, Bool.false_eq_true, if_false]

/-! ### The expiry (R56, R60) -/

theorem exec_proposalExpiry_due {ms : Nat} (h : s.proposal n = some p) (hst : p.state = .awaiting ms) (hms : ms ≤ 10) :
    exec (.proposalExpiry n) s = .next (settle s (removeProposal n s)) := by
  have hdue : timerDue p.state.timer = true := by rw [hst]; exact decide_eq_true hms
  show execProposalExpiry n s = _
  simp only [execProposalExpiry, h, if_pos hdue]

theorem exec_proposalExpiry_early (h : s.proposal n = some p) (hdue : timerDue p.state.timer = false) :
    exec (.proposalExpiry n) s = .next s := by
  show execProposalExpiry n s = _
  simp only [execProposalExpiry, h, hdue, Bool.false_eq_true, if_false]

theorem exec_proposalExpiry_none (h : s.proposal n = none) : exec (.proposalExpiry n) s = .next s := by
  show execProposalExpiry n s = _
  simp only [execProposalExpiry, h]

/-- Settles O21: the outcomes of `runReject`, `runWithdraw` and the expiry, with the event that a removal is. -/
theorem proposalRemovals : Obligations.ProposalRemovals := by
  refine ⟨fun ch a s h0 => ⟨fun h => ⟨fun hp => ?_, fun hp => ?_⟩, fun p h hw => ⟨fun hp => ?_, fun hp => ?_⟩,
    fun p h hw => ⟨fun hp => ?_, fun hp => ?_⟩⟩, fun s p ms h hst => ⟨fun hms => ?_, fun hms => ?_⟩, fun s n h => ?_⟩
  · rw [exec_reject hp (runReject_noProposal h0 h), settle_self]
  · rw [exec_withdraw hp (runWithdraw_noProposal h0 h), settle_self]
  · rw [exec_reject hp (runReject_writing h0 h hw), settle_self]
  · rw [exec_withdraw hp (runWithdraw_writing h0 h hw), settle_self]
  · have hrun := runReject_awaiting (ch := ch) h0 h hw
    refine ⟨fun hrole hreq => ?_, fun hq => ?_⟩
    · rw [if_neg (by rw [qualifies_eq_false hrole hreq]; exact Bool.false_ne_true), hrole, hreq] at hrun
      rw [exec_reject hp hrun, settle_self]
      rfl
    · have ⟨_, _, _, hmem⟩ := hp
      rw [if_pos (qualifies_eq_true hmem hq)] at hrun
      rw [exec_reject hp hrun, settle_removeProposal h]
  · have hrun := runWithdraw_awaiting (ch := ch) h0 h hw
    refine ⟨fun hne hrole => ?_, fun hq => ?_⟩
    · rw [if_pos ⟨hne, hrole⟩] at hrun
      rw [exec_withdraw hp hrun, settle_self]
    · rw [if_neg fun hdenied => hq.elim hdenied.1 hdenied.2] at hrun
      rw [exec_withdraw hp hrun, settle_removeProposal h]
  · rw [exec_proposalExpiry_due h hst hms, settle_removeProposal h]
  · exact exec_proposalExpiry_early h (by rw [hst]; exact decide_eq_false (Nat.not_le.2 hms))
  · rcases h with h | ⟨p, ch, h, hst⟩
    · exact exec_proposalExpiry_none h
    · exact exec_proposalExpiry_early h (by rw [hst]; rfl)

end Sys2Proof.Machine
end

section
/-! PROOFS. O23: the settings of the module record (R57, R159). -/

namespace Sys2Proof.Machine

variable {ch : ChannelNo} {a : Args} {s t : State} {code : AnswerCode} {result : List Byte}

/-- A setting of the module record sets no flag and forms no output. -/
theorem settle_setting (s : State) (m : ModuleRecord) :
    settle s (enqueue .moduleRec { s with access := m }) = enqueue .moduleRec { s with access := m } :=
  settle_quiet (by simp) (by simp) (by simp) (by simp) (by simp) (by simp) (by simp)

theorem setting_arrive (ch : ChannelNo) (req : Request) (s : State) (m : ModuleRecord) :
    enqueue .moduleRec { arrive ch req s with access := m } =
      arrive ch req (enqueue .moduleRec { s with access := m }) :=
  enqueue_arrive ch req .moduleRec { s with access := m }

theorem numBytes_toNat (h : Half) : numBytes h.toNat = halfBytes h := by
  rw [numBytes, BitVec.ofNat_toNat, BitVec.setWidth_eq]

/-! ### SET_LIFETIME -/

theorem setLifetime_actsBeside (ch : ChannelNo) (a : Args) : ActsBesideArrival setLifetimeRequest ch a := by
  intro req s
  simp only [setLifetimeRequest, runSetLifetime]
  split
  · rfl
  · exact congrArg (·, _) (setting_arrive ch req s _)

theorem exec_setLifetime (hp : Passes 2 [.quality] ch a s) (h : runSetLifetime a s = (t, .now code result)) :
    exec (.setLifetime ch a) s = .next (answered ch code result (settle s t)) :=
  (setLifetime_actsBeside ch a).next qualityOnly_iff hp h

/-! ### SET_ROLE_CODE -/

theorem setRoleCode_actsBeside (ch : ChannelNo) (a : Args) : ActsBesideArrival setRoleCodeRequest ch a := by
  intro req s
  simp only [setRoleCodeRequest, runSetRoleCode]
  split
  · exact congrArg (·, _) (setting_arrive ch req s _)
  · rfl

theorem exec_setRoleCode (hp : Passes 5 [.quality] ch a s) (h : runSetRoleCode a s = (t, .now code result)) :
    exec (.setRoleCode ch a) s = .next (answered ch code result (settle s t)) :=
  (setRoleCode_actsBeside ch a).next qualityOnly_iff hp h

theorem codeArg_of_code {w : Word} {c : Option Nat}
    (h : (w = 0xFFFFFFFF ∧ c = none) ∨ (w.toNat ≤ 999999 ∧ c = some w.toNat)) : codeArg w = some c := by
  unfold codeArg
  rcases h with ⟨rfl, rfl⟩ | ⟨hle, rfl⟩
  · rfl
  · have hne : w ≠ 0xFFFFFFFF := by rintro rfl; exact absurd hle (by decide)
    rw [if_neg hne, if_pos (show w.toNat ≤ Config.largestCode from hle)]

theorem codeArg_out {w : Word} (hlt : 999999 < w.toNat) (hne : w ≠ 0xFFFFFFFF) : codeArg w = none := by
  unfold codeArg
  rw [if_neg hne, if_neg (show ¬ w.toNat ≤ Config.largestCode from Nat.not_le.2 hlt)]

theorem exec_setRoleCode_done {role : Role} {c : Option Nat} (hp : Passes 5 [.quality] ch a s)
    (hrole : roleOf (argByte a 0).toNat = some role) (hc : codeArg (argWord a 1) = some c) :
    exec (.setRoleCode ch a) s = .next (answered ch .done [role.byte, byteOf c.isSome.toNat]
      (enqueue .moduleRec { s with access := s.access.setCode role c })) := by
  have hrun : runSetRoleCode a s = (enqueue .moduleRec { s with access := s.access.setCode role c },
      .done [role.byte, byteOf c.isSome.toNat]) := by
    simp only [runSetRoleCode, hrole, hc]
  rw [exec_setRoleCode hp hrun, settle_setting]

theorem exec_setRoleCode_refused (hp : Passes 5 [.quality] ch a s)
    (h : roleOf (argByte a 0).toNat = none ∨ codeArg (argWord a 1) = none) :
    exec (.setRoleCode ch a) s = .next (answered ch .badArgument [] s) := by
  have hrun : runSetRoleCode a s = (s, .refuse .badArgument) := by
    unfold runSetRoleCode
    split
    · next hrole hc => simp [hrole, hc] at h
    · rfl
  rw [exec_setRoleCode hp hrun, settle_self]

/-- Settles O23: the value in range is set and the module record queued, one out of range refused. -/
theorem moduleRecordSettings : Obligations.ModuleRecordSettings := by
  refine fun ch a s => ⟨fun hp => ⟨fun ⟨hlow, hhigh⟩ => ?_, fun h => ?_⟩,
    fun hp => ⟨fun c hc => ⟨fun h => ?_, fun h => ?_, fun h => ?_⟩, fun h => ?_⟩⟩
  · have hrun : runSetLifetime a s = (enqueue .moduleRec
        { s with access := { s.access with lifetime := (argHalf a 0).toNat } }, .done (halfBytes (argHalf a 0))) := by
      simp only [runSetLifetime, numBytes_toNat]
      exact if_neg (by omega)
    rw [exec_setLifetime hp hrun, settle_setting]
  · have hrun : runSetLifetime a s = (s, .refuse .badArgument) := if_pos h
    rw [exec_setLifetime hp hrun, settle_self]
  · exact exec_setRoleCode_done (role := .operator) hp (by rw [h]; rfl) (codeArg_of_code hc)
  · exact exec_setRoleCode_done (role := .engineer) hp (by rw [h]; rfl) (codeArg_of_code hc)
  · exact exec_setRoleCode_done (role := .quality) hp (by rw [h]; rfl) (codeArg_of_code hc)
  · refine exec_setRoleCode_refused hp ?_
    rcases h with h | h | ⟨hlt, hne⟩
    · exact .inl (roleOf_out (.inl (congrArg BitVec.toNat h)))
    · exact .inl (roleOf_out (.inr h))
    · exact .inr (codeArg_out hlt hne)

end Sys2Proof.Machine
end

section
/-! PROOFS. O22: the proposal list listed, walked and read (R56, R62 to R64). -/

namespace Sys2Proof.Machine

variable {ch : ChannelNo} {a : Args} {s t : State} {code : AnswerCode} {result : List Byte} {p : Proposal} {c : Change}
  {last : Option Nat} {before after rest : List Proposal}

/-! ### LIST_PROPOSALS and NEXT_PROPOSAL -/

theorem listProposals_actsBeside (ch : ChannelNo) (a : Args) : ActsBesideArrival listProposalsRequest ch a := by
  intro req s
  simp only [listProposalsRequest, runListProposals, arrive_proposals, setCursor_arrive]
  cases s.proposals <;> rfl

theorem nextProposal_actsBeside (ch : ChannelNo) (a : Args) : ActsBesideArrival nextProposalRequest ch a := by
  intro req s
  have hafter : ∀ last, (arrive ch req s).proposalAfter last = s.proposalAfter last := fun _ => rfl
  simp only [nextProposalRequest, runNextProposal, cursor_arrive, hafter, setCursor_arrive]
  cases (sel s.channels ch).cursor with
  | proposals last =>
    dsimp only
    cases s.proposalAfter last <;> rfl
  | noCursor => rfl
  | entries => rfl

theorem exec_listProposals (hp : Passes 0 everyRole ch a s) (h : runListProposals ch s = (t, .now code result)) :
    exec (.listProposals ch a) s = .next (answered ch code result (settle s t)) :=
  (listProposals_actsBeside ch a).next anyRole_iff hp h

theorem exec_nextProposal (hp : Passes 0 everyRole ch a s) (h : runNextProposal ch s = (t, .now code result)) :
    exec (.nextProposal ch a) s = .next (answered ch code result (settle s t)) :=
  (nextProposal_actsBeside ch a).next anyRole_iff hp h

theorem runListProposals_nil (h : s.proposals = []) :
    runListProposals ch s = (s.setCursor ch (.proposals none), .now .listEnd []) := by
  simp only [runListProposals, h]

theorem runListProposals_cons (h : s.proposals = p :: rest) :
    runListProposals ch s =
      (s.setCursor ch (.proposals (some p.stamp)), .done (p.summary ++ [byteOf (rest.length + 1)])) := by
  simp only [runListProposals, h]

/-- The next proposal of a walk is the first of the list with a later stamp (R63). -/
theorem proposalAfter_found (h : s.proposals = before ++ p :: after)
    (hbefore : ∀ q ∈ before, ∃ n, last = some n ∧ q.stamp ≤ n) (hp : ∀ n, last = some n → n < p.stamp) :
    s.proposalAfter last = some p := by
  unfold State.proposalAfter
  rw [h, List.find?_append, List.find?_eq_none.2, Option.none_or, List.find?_cons_of_pos]
  · cases last with
    | none => rfl
    | some n => exact decide_eq_true (hp n rfl)
  · intro q hq
    obtain ⟨n, rfl, hle⟩ := hbefore q hq
    simpa using hle

theorem proposalAfter_end (h : ∀ q ∈ s.proposals, ∃ n, last = some n ∧ q.stamp ≤ n) :
    s.proposalAfter last = none := by
  refine List.find?_eq_none.2 fun q hq => ?_
  obtain ⟨n, rfl, hle⟩ := h q hq
  simpa using hle

theorem runNextProposal_found (hc : (sel s.channels ch).cursor = .proposals last) (h : s.proposalAfter last = some p) :
    runNextProposal ch s = (s.setCursor ch (.proposals (some p.stamp)), .done p.summary) := by
  simp only [runNextProposal, hc, h]

theorem runNextProposal_end (hc : (sel s.channels ch).cursor = .proposals last) (h : s.proposalAfter last = none) :
    runNextProposal ch s = (s, .now .listEnd []) := by
  simp only [runNextProposal, hc, h]

theorem runNextProposal_noCursor (h : ∀ last, (sel s.channels ch).cursor ≠ .proposals last) :
    runNextProposal ch s = (s, .refuse .noCursor) := by
  unfold runNextProposal
  cases hc : (sel s.channels ch).cursor with
  | proposals last => exact absurd hc (h last)
  | noCursor => rfl
  | entries => rfl

/-! ### READ_PROPOSAL -/

theorem readProposal_actsBeside (ch : ChannelNo) (a : Args) : ActsBesideArrival readProposalRequest ch a :=
  fun _ _ => rfl

theorem exec_readProposal (hp : Passes 3 everyRole ch a s) (h : answerReadProposal a s = .now code result) :
    exec (.readProposal ch a) s = .next (answered ch code result s) := by
  have hrun : readProposalRequest.run ch a s = (s, .now code result) := congrArg (s, ·) h
  have := (readProposal_actsBeside ch a).next anyRole_iff hp hrun
  rwa [settle_self] at this

/-- The arguments of READ_PROPOSAL are in range (R64). -/
def ReadProposalArgs (a : Args) : Prop :=
  (argByte a 0).toNat ≠ 0 ∧ (argByte a 1).toNat ≤ 1 ∧ (argByte a 2).toNat ≤ 3

theorem answerReadProposal_noProposal (ha : ReadProposalArgs a) (h : s.proposal (argByte a 0).toNat = none) :
    answerReadProposal a s = .refuse .noProposal := by
  obtain ⟨h0, h1, h2⟩ := ha
  simp only [answerReadProposal, h]
  exact if_neg (by omega)

theorem answerReadProposal_listEnd (ha : ReadProposalArgs a) (h : s.proposal (argByte a 0).toNat = some p)
    (hc : p.changes[(argByte a 1).toNat]? = none) : answerReadProposal a s = .now .listEnd [] := by
  obtain ⟨h0, h1, h2⟩ := ha
  simp only [answerReadProposal, h, hc]
  exact if_neg (by omega)

theorem answerReadProposal_part (ha : ReadProposalArgs a) (h : s.proposal (argByte a 0).toNat = some p)
    (hc : p.changes[(argByte a 1).toNat]? = some c) :
    answerReadProposal a s = .done (proposalPart p c (argByte a 2).toNat) := by
  obtain ⟨h0, h1, h2⟩ := ha
  simp only [answerReadProposal, h, hc]
  exact if_neg (by omega)

theorem numBytes_zero : numBytes 0 = [0, 0] := by decide

/-- Part 0 in AWAITING: no approving channel, and the seconds that remain, rounded up (R56). -/
theorem proposalPart_awaiting {ms : Nat} (h : p.state = .awaiting ms) :
    proposalPart p c 0 = [c.kind.byte, 1, p.required.byte, byteOf (p.proposer.val + 1), p.role.byte, 0,
      byteOf p.changes.length] ++ numBytes ((ms + 999) / 1000) := by
  rw [proposalPart, h]
  rfl

/-- Part 0 in WRITING: the approving channel, and no seconds. -/
theorem proposalPart_writing {approver : ChannelNo} (h : p.state = .writing approver) :
    proposalPart p c 0 = [c.kind.byte, 2, p.required.byte, byteOf (p.proposer.val + 1), p.role.byte,
      byteOf (approver.val + 1), byteOf p.changes.length, 0, 0] := by
  rw [proposalPart, h, ProposalState.remainingSeconds, numBytes_zero]
  rfl

/-- Zeros at the end of a result are as good as no bytes (R175). -/
theorem resultBytes_append_zeros (l : List Byte) (n : Nat) :
    resultBytes (l ++ List.replicate n 0) = resultBytes l := by
  unfold resultBytes
  congr 1
  funext i
  simp only [List.getD_eq_getElem?_getD, List.getElem?_append, List.getElem?_replicate]
  split
  · rfl
  · next hlt =>
    rw [List.getElem?_eq_none (by omega)]
    split <;> rfl

theorem answered_append_zeros (ch : ChannelNo) (code : AnswerCode) (l : List Byte) (n : Nat) (s : State) :
    answered ch code (l ++ List.replicate n 0) s = answered ch code l s := by
  unfold answered AnswerArea.of
  rw [resultBytes_append_zeros]

section Parts

variable {k : Key} {e : Half} {v : Word} {low high : BoundField} {tol : Option Half} {cls : EntryClass}
  {q : Option ParamNo}

/-! Part 1 is the key with the expected revision, the class and the partner; part 2 the value and the tolerance; part 3
the bounds (Table 23). -/

theorem proposalPart_set :
    proposalPart p (.set k e v low high tol) 1 = [1] ++ keyBytes k ++ halfBytes e ++ [0, 0, 0] ∧
    proposalPart p (.set k e v low high tol) 2 =
      [1] ++ wordBytes v ++ [bitsByte [tol.isSome, false]] ++ halfBytes (tol.getD 0) ∧
    proposalPart p (.set k e v low high tol) 3 =
      [1, byteOf (low.selector + 4 * high.selector)] ++ wordBytes low.shown ++ wordBytes high.shown := by
  refine ⟨?_, rfl, rfl⟩
  simp [proposalPart, Change.kind, ChangeKind.byte, Change.key, Change.expected, Change.classByte, Change.named,
    numBytes_zero]

theorem proposalPart_create :
    proposalPart p (.create k v low high tol cls q) 1 =
      [2] ++ keyBytes k ++ [0, 0, cls.byte] ++ numBytes ((q.map Fin.val).getD 0) ∧
    proposalPart p (.create k v low high tol cls q) 2 =
      [2] ++ wordBytes v ++ [bitsByte [tol.isSome, q.isSome]] ++ halfBytes (tol.getD 0) ∧
    proposalPart p (.create k v low high tol cls q) 3 =
      [2, byteOf (low.selector + 4 * high.selector)] ++ wordBytes low.shown ++ wordBytes high.shown := by
  refine ⟨?_, rfl, rfl⟩
  have hkey : proposalPart p (.create k v low high tol cls q) 1 =
      [2] ++ keyBytes k ++ halfBytes 0 ++ [cls.byte] ++ numBytes ((q.map Fin.val).getD 0) := by
    simp [proposalPart, Change.kind, ChangeKind.byte, Change.key, Change.expected, Change.classByte, Change.named]
  rw [hkey, halfBytes_zero]
  simp

/-- Parts 2 and 3 of a RETIRE are 0 past the kind. -/
theorem proposalPart_retire :
    proposalPart p (.retire k e) 1 = [3] ++ keyBytes k ++ halfBytes e ++ [0, 0, 0] ∧
    proposalPart p (.retire k e) 2 = [3] ++ List.replicate 7 0 ∧
    proposalPart p (.retire k e) 3 = [3] ++ List.replicate 9 0 := by
  have hvalue : wordBytes 0 ++ [bitsByte [false, false]] ++ halfBytes 0 = List.replicate 7 0 := by decide
  have hbounds : [byteOf 0] ++ wordBytes 0 ++ wordBytes 0 = List.replicate 9 0 := by decide
  refine ⟨?_, congrArg (List.cons 3) hvalue, congrArg (List.cons 3) hbounds⟩
  simp [proposalPart, Change.kind, ChangeKind.byte, Change.key, Change.expected, Change.classByte, Change.named,
    numBytes_zero]

end Parts

/-- Settles O22: the list is read in stamp order, and each part of a change for each kind. -/
theorem proposalReadings : Obligations.ProposalReadings := by
  refine ⟨fun ch a s hp => ⟨fun h => ?_, fun p rest h => ?_, fun before after p last hc h hbefore hlast => ?_,
    fun last hc h => ?_, fun h => ?_⟩, fun ch a s hp h0 h1 h2 h =>
      exec_readProposal hp (answerReadProposal_noProposal ⟨argByte_toNat_ne_zero h0, h1, h2⟩ h),
    fun ch a s p c hp h0 h => ⟨fun h1 hlen h2 => ?_, fun h1 hc => ?_⟩⟩
  · rw [exec_listProposals hp (runListProposals_nil h), settle_setCursor]
  · rw [exec_listProposals hp (runListProposals_cons h), settle_setCursor]
    rfl
  · rw [exec_nextProposal hp (runNextProposal_found hc (proposalAfter_found h hbefore hlast)), settle_setCursor]
    rfl
  · rw [exec_nextProposal hp (runNextProposal_end hc (proposalAfter_end h)), settle_self]
  · rw [exec_nextProposal hp (runNextProposal_noCursor h), settle_self]
  · have hone : (argByte a 1).toNat = 1 := congrArg BitVec.toNat h1
    exact exec_readProposal hp (answerReadProposal_listEnd ⟨h0, hone.le, h2⟩ h
      (List.getElem?_eq_none (by rw [hone]; exact hlen)))
  · have hpart : ∀ {b : Byte} {n : Nat} {result : List Byte}, argByte a 2 = b → b.toNat = n → n ≤ 3 →
        proposalPart p c n = result → exec (.readProposal ch a) s = .next (answered ch .done result s) := by
      rintro _ _ _ rfl rfl hn rfl
      exact exec_readProposal hp (answerReadProposal_part ⟨h0, h1, hn⟩ h hc)
    refine ⟨fun h2 => ⟨fun ms hst => ?_, fun approver hst => ?_⟩, ?_, ?_, ?_⟩
    · exact hpart h2 rfl (by decide) (proposalPart_awaiting hst)
    · exact hpart h2 rfl (by decide) (proposalPart_writing hst)
    · rintro k e v low high t rfl
      obtain ⟨hkey, hvalue, hbounds⟩ := proposalPart_set (p := p) (k := k) (e := e) (v := v) (low := low) (high := high)
      exact ⟨fun h2 => hpart h2 rfl (by decide) hkey, fun h2 => hpart h2 rfl (by decide) hvalue,
        fun h2 => hpart h2 rfl (by decide) hbounds⟩
    · rintro k v low high t cls q rfl
      obtain ⟨hkey, hvalue, hbounds⟩ := proposalPart_create (p := p) (k := k) (v := v) (low := low) (high := high)
      exact ⟨fun h2 => hpart h2 rfl (by decide) hkey, fun h2 => hpart h2 rfl (by decide) hvalue,
        fun h2 => hpart h2 rfl (by decide) hbounds⟩
    · rintro k e rfl
      obtain ⟨hkey, hvalue, hbounds⟩ := proposalPart_retire (p := p) (k := k) (e := e)
      refine ⟨fun h2 => hpart h2 rfl (by decide) hkey, fun h2 => ?_⟩
      rcases h2 with h2 | h2
      · rw [← answered_append_zeros ch .done [3] 7]
        exact hpart h2 rfl (by decide) hvalue
      · rw [← answered_append_zeros ch .done [3] 9]
        exact hpart h2 rfl (by decide) hbounds

end Sys2Proof.Machine
end

section
/-! PROOFS. O19 and O20: APPROVE accepted, and refused by the checks of Table 28 in their order (R66 to R69). -/

namespace Sys2Proof.Machine

variable {ch : ChannelNo} {a : Args} {s t : State} {code : AnswerCode} {result : List Byte} {p : Proposal} {r : Reply}

/-! ### The request on its channel -/

theorem approvalChecks_arrive (req : Request) : approvalChecks (arrive ch req s) ch p = approvalChecks s ch p := by
  unfold approvalChecks
  rw [role_arrive]
  rfl

theorem markWriting_arrive (n : Nat) (req : Request) :
    markWriting n ch (arrive ch req s) = arrive ch req (markWriting n ch s) := rfl

theorem approve_actsBeside (ch : ChannelNo) (a : Args) : ActsBesideArrival approveRequest ch a := by
  intro req s
  have hprop : ∀ n, (arrive ch req s).proposal n = s.proposal n := fun _ => rfl
  simp only [approveRequest, runApprove, hprop, approvalChecks_arrive, markWriting_arrive, enqueue_arrive]
  split
  · rfl
  · cases s.proposal (argByte a 0).toNat with
    | none => rfl
    | some p =>
      dsimp only
      cases approvalChecks s ch p <;> rfl

/-- A request that is not answered yet leaves its channel with the request arrived. -/
theorem ActsBesideArrival.later {r : RequestSpec} {roles : List Role} (hr : ActsBesideArrival r ch a)
    (hroles : ∀ x, r.admits x = true ↔ x ∈ roles) (hp : Passes r.used roles ch a s)
    (hrun : r.run ch a s = (t, .later)) : takeRequest r ch a s = arrive ch ⟨r.code, a⟩ (settle s t) := by
  obtain ⟨harrive, hready, hzero, hrole⟩ := hp
  rw [takeRequest_run harrive hready hzero ((hroles _).2 hrole), runRequest, hr, hrun]
  exact settle_arrive ch _ s t

/-! ### The checks of Table 28 -/

theorem approvalChecks_writing (hw : p.isWriting = true) : approvalChecks s ch p = some (.refuse .notAwaiting) :=
  if_pos hw

theorem approvalChecks_denied (hw : p.isWriting = false) (hrole : s.role ch = .engineer)
    (hreq : p.required = .qualityOnly) : approvalChecks s ch p = some (.now .denied [2, 2]) := by
  simp only [approvalChecks, hw, hrole, hreq]
  rfl

/-- Checks 5 to 8, of an AWAITING proposal that the role may approve. -/
theorem approvalChecks_qualified (hw : p.isWriting = false) (hq : qualifies (s.role ch) p.required = true) :
    approvalChecks s ch p =
      if ch = p.proposer then some (.refuse .selfApproval)
      else (checkEach (checkRelease s) 0 p.changes).or <|
        if s.degraded then some (.refuse .storeFault)
        else if s.approvalRoom < createCount p.changes then some (.now .tableFull (numBytes s.approvalRoom))
        else none := by
  simp only [approvalChecks, hw, hq]
  rfl

theorem checkRelease_closed {i : Nat} {c : Change} (hcls : classAt s.slots c = some .fixed) (hrel : s.release = none) :
    checkRelease s i c = some (.now .releaseClosed [byteOf i]) :=
  if_pos (releaseBars_iff.2 ⟨hcls, hrel⟩)

theorem checkRelease_passed {i : Nat} {c : Change} (h : classAt s.slots c = some .fixed → s.release ≠ none) :
    checkRelease s i c = none :=
  if_neg fun hb => h (releaseBars_iff.1 hb).1 (releaseBars_iff.1 hb).2

/-- Check 6 passes where the release is open or no change is FIXED (R67). -/
theorem checkEach_checkRelease_passed {l : List Change}
    (h : ∀ c ∈ l, classAt s.slots c = some .fixed → s.release ≠ none) : checkEach (checkRelease s) 0 l = none :=
  checkEach_eq_none_iff.2 fun _ c hc => checkRelease_passed (h c (List.mem_of_getElem? hc))

theorem approvalChecks_selfApproval (hw : p.isWriting = false) (hq : qualifies (s.role ch) p.required = true)
    (hself : ch = p.proposer) : approvalChecks s ch p = some (.refuse .selfApproval) := by
  rw [approvalChecks_qualified hw hq, if_pos hself]

theorem approvalChecks_barred (hw : p.isWriting = false) (hq : qualifies (s.role ch) p.required = true)
    (hother : ch ≠ p.proposer) (h : checkEach (checkRelease s) 0 p.changes = some r) :
    approvalChecks s ch p = some r := by
  rw [approvalChecks_qualified hw hq, if_neg hother, h, Option.some_or]

/-- Checks 7 and 8, where the release bars no change. -/
theorem approvalChecks_released (hw : p.isWriting = false) (hq : qualifies (s.role ch) p.required = true)
    (hother : ch ≠ p.proposer) (h : ∀ c ∈ p.changes, classAt s.slots c = some .fixed → s.release ≠ none) :
    approvalChecks s ch p =
      if s.degraded then some (.refuse .storeFault)
      else if s.approvalRoom < createCount p.changes then some (.now .tableFull (numBytes s.approvalRoom))
      else none := by
  rw [approvalChecks_qualified hw hq, if_neg hother, checkEach_checkRelease_passed h, Option.none_or]

/-! ### The outcomes of APPROVE -/

theorem runApprove_noProposal (h0 : argByte a 0 ≠ 0) (h : s.proposal (argByte a 0).toNat = none) :
    runApprove ch a s = (s, .refuse .noProposal) := by
  simp only [runApprove, h, if_neg (argByte_toNat_ne_zero h0)]

theorem runApprove_refused (h0 : argByte a 0 ≠ 0) (h : s.proposal (argByte a 0).toNat = some p)
    (hr : approvalChecks s ch p = some r) : runApprove ch a s = (s, r) := by
  simp only [runApprove, h, hr, if_neg (argByte_toNat_ne_zero h0)]

theorem runApprove_accepted (h0 : (argByte a 0).toNat ≠ 0) (h : s.proposal (argByte a 0).toNat = some p)
    (hr : approvalChecks s ch p = none) :
    runApprove ch a s =
      (enqueue (.proposal ch (argByte a 0).toNat) (markWriting (argByte a 0).toNat ch s), .later) := by
  simp only [runApprove, h, hr, if_neg h0]

theorem exec_approve_answered (hp : Passes 1 [.engineer, .quality] ch a s)
    (h : runApprove ch a s = (s, .now code result)) :
    exec (.approve ch a) s = .next (answered ch code result s) := by
  have hnext := (approve_actsBeside ch a).next engineerOrQuality_iff hp h
  rw [settle_self] at hnext
  exact hnext

/-- An approval changes no stamp, so it sets no flag. -/
theorem settle_approval (n : Nat) (ch : ChannelNo) (s : State) :
    settle s (enqueue (.proposal ch n) (markWriting n ch s)) = enqueue (.proposal ch n) (markWriting n ch s) := by
  have hstamps : s.proposals.map Proposal.stamp =
      (enqueue (.proposal ch n) (markWriting n ch s)).proposals.map Proposal.stamp := by
    rw [enqueue_proposals, markWriting_proposals_eq, List.map_map]
    exact List.map_congr_left fun p _ => (approved_stamp n ch p).symm
  rw [settle_proposal_event (by simp) (by simp) (by simp) (by simp) (by simp) (by simp), ← hstamps, decide_eq_false
    (fun h => h rfl)]
  exact raise_empty _

/-- Settles O19: all checks pass, the item is a new one, and the event sets no flag. -/
theorem approveAccepted : Obligations.ApproveAccepted := by
  intro ch a s p hp h0 h hw hrole hother hrel hdeg hroom hnew
  have ⟨_, _, _, hmem⟩ := hp
  have hchecks : approvalChecks s ch p = none := by
    rw [approvalChecks_released hw (qualifies_eq_true hmem hrole) hother hrel, if_neg (by simp [hdeg]),
      if_neg (Nat.not_lt.2 hroom)]
  have htake := (approve_actsBeside ch a).later engineerOrQuality_iff hp (runApprove_accepted h0 h hchecks)
  rw [settle_approval, enqueue_new (s := markWriting _ _ s) hnew, ← takeItem_arrive] at htake
  exact congrArg Host.Outcome.next htake

/-- Settles O20: the first check that fails gives the answer. -/
theorem approveRefusals : Obligations.ApproveRefusals := by
  refine ⟨fun ch a s hp => ⟨fun h0 => ?_, fun h0 h => ?_, fun p h0 h => ?_⟩, fun _ => rfl, fun _ => rfl,
    fun _ => isWriting_iff⟩
  · exact exec_approve_answered hp (if_pos (congrArg BitVec.toNat h0))
  · exact exec_approve_answered hp (runApprove_noProposal h0 h)
  · have ⟨_, _, _, hmem⟩ := hp
    have hanswer : ∀ {code result}, approvalChecks s ch p = some (.now code result) →
        exec (.approve ch a) s = .next (answered ch code result s) :=
      fun hr => exec_approve_answered hp (runApprove_refused h0 h hr)
    refine ⟨fun hw => hanswer (approvalChecks_writing hw),
      fun hw => ⟨fun ⟨hrole, hreq⟩ => hanswer (approvalChecks_denied hw hrole hreq), fun hq => ?_⟩⟩
    replace hq := qualifies_eq_true hmem hq
    refine ⟨fun hself => hanswer (approvalChecks_selfApproval hw hq hself), fun c rest hl hother hcls hrel => ?_,
      fun c d rest hl hother hc hd hrel => ?_, fun hother hrel => ⟨fun hdeg => ?_, fun hdeg hroom => ?_⟩⟩
    · refine hanswer (approvalChecks_barred hw hq hother ?_)
      rw [hl, checkEach, checkRelease_closed hcls hrel]
      rfl
    · refine hanswer (approvalChecks_barred hw hq hother ?_)
      rw [hl, checkEach, checkRelease_passed fun h => absurd h hc, checkEach, checkRelease_closed hd hrel]
      rfl
    · exact hanswer ((approvalChecks_released hw hq hother hrel).trans (if_pos hdeg))
    · refine hanswer ((approvalChecks_released hw hq hother hrel).trans ?_)
      rw [if_neg (by simp [hdeg]), if_pos hroom]

end Sys2Proof.Machine
end

section
/-! PROOFS. O24: what joins the write queue, and what the writer takes (R75, R77 to R79). -/

namespace Sys2Proof.Machine

variable {s : State} {i : WriteItem}

/-- The item that stands before all others is the first. -/
theorem firstItem_of_least {l : List Proposal} {q : List WriteItem} (hi : i ∈ q)
    (hlt : ∀ j ∈ q, j = i ∨ itemRank l i < itemRank l j) : firstItem l q = some i := by
  cases hf : firstItem l q with
  | none => rw [firstItem_none hf] at hi; cases hi
  | some k =>
    have hle := firstItem_least hf i hi
    rcases hlt k (firstItem_mem hf) with rfl | h
    · rfl
    · omega

/-- A free writer takes the first item. -/
theorem takeItem_first (hw : s.writer = none) (hf : firstItem s.proposals s.queue = some i) :
    takeItem s = { s with queue := s.queue.erase i, writer := formJob s i } := by
  simp only [takeItem, hw, hf]

/-- What is written for an item does not rest on the queue. -/
theorem formJob_queue (s : State) (i : WriteItem) (q : List WriteItem) :
    formJob { s with queue := q } i = formJob s i := by
  cases i <;> rfl

theorem enqueue_busy {j : Job} (hi : i ∉ s.queue) (hw : s.writer = some j) :
    enqueue i s = { s with queue := s.queue ++ [i] } := by
  rw [enqueue_new hi]
  exact takeItem_busy hw

theorem enqueue_idle (hw : s.writer = none) (hq : s.queue = []) :
    enqueue i s = { s with queue := [], writer := formJob s i } := by
  have hnew : i ∉ s.queue := by simp [hq]
  have hfirst : firstItem s.proposals (s.queue ++ [i]) = some i := by rw [hq]; rfl
  rw [enqueue_new hnew, takeItem_first (s := { s with queue := s.queue ++ [i] }) hw hfirst, formJob_queue]
  simp [hq]

theorem formJob_planned {ch : ChannelNo} {p : Proposal} {plans : List SlotPlan} (h : s.proposal p.number = some p)
    (hplans : planSlots s.slots p.changes (s.slots.map Prod.fst) p.changes = some plans) :
    formJob s (.proposal ch p.number) = some (.proposal ch p.number plans []) := by
  have hfind : (s.proposals.find? fun q => q.number == p.number) = some p := h
  simp only [formJob, hfind, hplans, Option.map_some]

/-- The rank of an open proposal's item is by its stamp. -/
theorem itemRank_proposal {l : List Proposal} {p : Proposal} (hu : NumbersUnique l) (hp : p ∈ l) (ch : ChannelNo) :
    itemRank l (.proposal ch p.number) = 37 + p.stamp := by
  have hfind : (l.find? fun q => q.number == p.number) = some p :=
    proposal_of_mem (s := { State.reset with proposals := l }) hu hp
  simp only [itemRank, hfind, Option.map_some, Option.getD_some]

/-- The kinds of items in the writer's order, sections and stations by their numbers. -/
theorem itemRank_kinds (l : List Proposal) (x y : SectionNo) (u v : StationNo) (ch : ChannelNo) (n : Nat) :
    itemRank l .moduleRec < itemRank l (.sect x) ∧ itemRank l (.sect x) < itemRank l (.station u) ∧
      itemRank l (.station u) < itemRank l (.proposal ch n) ∧
      (x < y → itemRank l (.sect x) < itemRank l (.sect y)) ∧
      (u < v → itemRank l (.station u) < itemRank l (.station v)) := by
  have hx := x.isLt
  have hu := u.isLt
  simp only [itemRank, Fin.lt_def]
  refine ⟨?_, ?_, ?_, fun h => ?_, fun h => ?_⟩ <;> omega

/-- Settles O24: what joins, what a free writer takes, what it is to write, and the ranks. -/
theorem writerOrder : Obligations.WriterOrder := by
  refine fun s i => ⟨enqueue_queued, fun j => enqueue_busy, enqueue_idle,
    fun hw hi hlt => takeItem_first hw (firstItem_of_least hi hlt), rfl, fun _ => rfl, fun _ => rfl,
    fun ch p plans => formJob_planned, fun l p q ch ch' hu hp hq hlt => ?_, itemRank_kinds⟩
  rw [itemRank_proposal hu hp, itemRank_proposal hu hq]
  omega

end Sys2Proof.Machine
end

section
/-! PROOFS. O25: the end of a record write, and of the first slot write of two (R78, R80, R81, R85). -/

namespace Sys2Proof.Machine

variable {s : State} {j : Job}

/-! ### Record writes (R78, R85) -/

theorem exec_recordWriteCompletion (o : RecordOutcome) (hw : s.writer = some j) (hj : j.isRecord = true) :
    exec (.recordWriteCompletion o) s = .next (takeItem (settle s (endRecord o j s))) := by
  show execRecordWriteCompletion o s = _
  simp only [execRecordWriteCompletion, hw, if_pos hj]

/-- A verified write leaves its content and the store's condition. -/
theorem settle_endRecord_verified (j : Job) (s : State) :
    settle s (endRecord .verified j s) = { s with array := leaveRecord j .new s.array, writer := none } := by
  have hend : endRecord .verified j s = { s with array := leaveRecord j .new s.array, writer := none } := by
    simp only [endRecord, recordLeft, recordFailed, Bool.or_false]
  rw [hend]
  exact settle_quiet rfl rfl rfl rfl rfl rfl rfl

/-- A failed write makes the store DEGRADED, and sets STORE where it was NORMAL. -/
theorem settle_endRecord_failed (l : Left) (j : Job) (s : State) :
    settle s (endRecord (.failed l) j s) = State.raise
      { s with array := leaveRecord j l s.array, writer := none, degraded := true }
      ⟨false, false, false, false, !s.degraded⟩ := by
  have hend : endRecord (.failed l) j s =
      { s with array := leaveRecord j l s.array, writer := none, degraded := true } := by
    simp only [endRecord, recordLeft, recordFailed, Bool.or_true]
  rw [hend]
  have hstore := settle_store_event (s := s)
    (t := { s with array := leaveRecord j l s.array, writer := none, degraded := true }) rfl rfl rfl rfl rfl rfl
  rwa [Bool.and_true] at hstore

/-- A failed write may leave the slot as it was. -/
theorem leaveRecord_old (j : Job) (a : NvArray) : leaveRecord j .old a = a := by
  cases j <;> simp only [leaveRecord, leaves, upd_sel]

/-- How a record write ends: verified, and failed with each of the three contents. -/
theorem recordWriteCompletion_outcomes (hw : s.writer = some j) (hj : j.isRecord = true) :
    exec (.recordWriteCompletion .verified) s =
        .next (takeItem { s with array := leaveRecord j .new s.array, writer := none }) ∧
      exec (.recordWriteCompletion (.failed .torn)) s = .next (takeItem (State.raise
        { s with array := leaveRecord j .torn s.array, writer := none, degraded := true }
        ⟨false, false, false, false, !s.degraded⟩)) ∧
      exec (.recordWriteCompletion (.failed .old)) s = .next (takeItem (State.raise
        { s with writer := none, degraded := true } ⟨false, false, false, false, !s.degraded⟩)) ∧
      exec (.recordWriteCompletion (.failed .new)) s = .next (takeItem (State.raise
        { s with array := leaveRecord j .new s.array, writer := none, degraded := true }
        ⟨false, false, false, false, !s.degraded⟩)) := by
  refine ⟨?_, ?_, ?_, ?_⟩
  · rw [exec_recordWriteCompletion _ hw hj, settle_endRecord_verified]
  · rw [exec_recordWriteCompletion _ hw hj, settle_endRecord_failed]
  · rw [exec_recordWriteCompletion _ hw hj, settle_endRecord_failed, leaveRecord_old]
  · rw [exec_recordWriteCompletion _ hw hj, settle_endRecord_failed]

/-! ### The first slot write of two (R80, R81) -/

theorem exec_slotWriteCompletion_first {ch : ChannelNo} {number : Nat} {p q : SlotPlan} (o : SlotOutcome)
    (hw : s.writer = some (.proposal ch number [p, q] [])) :
    exec (.slotWriteCompletion o) s = .next
      { s with
        array := (writeSlotPlan p o s.array).1
        writer := some (.proposal ch number [p, q] [(writeSlotPlan p o s.array).2]) } := by
  show execSlotWriteCompletion o s = _
  simp only [execSlotWriteCompletion, hw]
  rfl

theorem leaveSlot_set {p : SlotPlan} (hk : p.kind = .set) (h b : Left) (a : NvArray) :
    leaveSlot p h b a =
      a.writeSlot p.slot ⟨(a.slot p.slot).header, leaves b (a.slot p.slot).body p.body none⟩ := by
  simp only [leaveSlot, hk]

theorem leaveSlot_create {p : SlotPlan} (hk : p.kind = .create) (h b : Left) (a : NvArray) :
    leaveSlot p h b a = a.writeSlot p.slot
      ⟨leaves h (a.slot p.slot).header p.header .failed, leaves b (a.slot p.slot).body p.body none⟩ := by
  simp only [leaveSlot, hk]

theorem leaveSlot_retire {p : SlotPlan} (hk : p.kind = .retire) (h b : Left) (a : NvArray) :
    leaveSlot p h b a =
      a.writeSlot p.slot ⟨leaves h (a.slot p.slot).header .free .failed, (a.slot p.slot).body⟩ := by
  simp only [leaveSlot, hk]

/-- A slot write touches no record slot. -/
theorem leaveSlot_records (p : SlotPlan) (h b : Left) (a : NvArray) :
    (leaveSlot p h b a).stations = a.stations ∧ (leaveSlot p h b a).sections = a.sections ∧
      (leaveSlot p h b a).moduleRec = a.moduleRec := by
  unfold leaveSlot
  cases p.kind <;> exact ⟨rfl, rfl, rfl⟩

/-- A SET verifies where the header reads as the entry's. -/
theorem writeSlotPlan_set {p : SlotPlan} (hk : p.kind = .set) (a : NvArray) :
    (writeSlotPlan p .verified a).2 = decide ((a.slot p.slot).header = .entry p.key p.cls p.partner) := by
  simp only [writeSlotPlan, hk]
  rfl

/-- A CREATE and a RETIRE verify. -/
theorem writeSlotPlan_verified {p : SlotPlan} (hk : p.kind ≠ .set) (a : NvArray) :
    (writeSlotPlan p .verified a).2 = true := by
  simp [writeSlotPlan, hk]

/-- Settles O25: the record outcomes for each kind of record, and the first slot write for each kind of change. -/
theorem writeCompletions : Obligations.WriteCompletions := by
  refine ⟨fun s j hw => ⟨?_, ?_, ?_⟩, fun s ch number p q hw => ⟨fun hk => ?_, fun hk => ?_, fun hk => ?_,
    fun h b => ⟨_, exec_slotWriteCompletion_first (.failed h b) hw,
      fun n hn => slot_leaveSlot_ne h b s.array hn, leaveSlot_records p h b s.array⟩, fun h b => ?_⟩⟩
  · rintro c rfl
    exact recordWriteCompletion_outcomes hw rfl
  · rintro n c rfl
    exact recordWriteCompletion_outcomes hw rfl
  · rintro n c rfl
    exact recordWriteCompletion_outcomes hw rfl
  · rw [exec_slotWriteCompletion_first _ hw, writeSlotPlan_set hk, writeSlotPlan, leaveSlot_set hk]
    rfl
  · rw [exec_slotWriteCompletion_first _ hw, writeSlotPlan_verified (by simp [hk]), writeSlotPlan, leaveSlot_create hk]
    rfl
  · rw [exec_slotWriteCompletion_first _ hw, writeSlotPlan_verified (by simp [hk]), writeSlotPlan, leaveSlot_retire hk]
    rfl
  · rw [exec_slotWriteCompletion_first _ hw, writeSlotPlan]
    cases hk : p.kind with
    | set => rw [leaveSlot_set hk]; rfl
    | create => rw [leaveSlot_create hk]; rfl
    | retire => rw [leaveSlot_retire hk]; rfl

end Sys2Proof.Machine
end

section
/-! PROOFS. O53: the module resets, and the array as cut-short writes leave it (R87, R88, R91, R182, R194). -/

namespace Sys2Proof.Machine

variable {s : State} {i : Interruption}

/-! ### The writer's work cut short (R80, R87) -/

/-- Outside a scan the writer's work alone is cut short. -/
theorem cutArray_of_not_scanning (i : Interruption) (h : s.phase ≠ .scanning) :
    cutArray i s = interruptJob i s.writer s.array := by
  rw [cutArray, if_neg h]

/-- A slot write cut short: of a CREATE whose header is no longer the old one, the body is the new one. -/
theorem interruptJob_slotWrite {j : Option Job} {a : NvArray} {ch : ChannelNo} {number : Nat} {plans : List SlotPlan}
    {results : List Bool} {p : SlotPlan} (hj : j = some (.proposal ch number plans results))
    (hp : plans[results.length]? = some p) :
    interruptJob i j a =
      leaveSlot p i.header (if p.kind = .create ∧ i.header ≠ .old then .new else i.body) a := by
  simp only [hj, interruptJob, hp]

/-! ### The scan's own writes cut short (R88, R91) -/

/-- In a scan the writer is idle, and the scan's own writes are cut short. -/
theorem cutArray_of_scanning (i : Interruption) (h : s.phase = .scanning) (hw : s.writer = none) :
    cutArray i s = scanWrites .old i.written (partnerPass s.slots) s.array := by
  rw [cutArray, if_pos h, hw]
  rfl

/-- Of a failed record's replacement that is cut short, or has not begun, only the whole delivery content reads as
valid (R90). -/
theorem replaceRecord_cut {α : Type} (w : ScanWrites) (t : ScanTarget) (delivery : α) :
    replaceRecord (scanLeft w t .old) delivery .failed =
      if (w.find? fun x => x.1 == t).map Prod.snd = some .new then .valid delivery else .failed := by
  unfold scanLeft
  cases (w.find? fun x => x.1 == t).map Prod.snd with
  | none => rfl
  | some l => cases l <;> rfl

/-! ### What is exchanged and driven in each phase -/

/-- R92, R156 and R194: held, in a scan, and without supply. -/
theorem exchanging_ready_of_phase (t : State) :
    (t.phase = .held → t.exchanging = false ∧ t.ready = false ∧ moduleLed t = .greenFlashing) ∧
    (t.phase = .scanning → t.exchanging = true ∧ t.ready = false ∧ moduleLed t = .greenFlashing) ∧
    (t.phase = .off → t.exchanging = false ∧ t.ready = false ∧ ∀ sec, t.driven sec = false) := by
  refine ⟨fun h => ?_, fun h => ?_, fun h => ?_⟩
  · simp [State.exchanging, State.ready, moduleLed, h]
  · simp [State.exchanging, State.ready, moduleLed, h]
  · simp [State.exchanging, State.ready, State.driven, h]

/-! ### The four commands -/

theorem exec_powerOn (i : Interruption) (terminals : Bank 4 Bool) (s : State) :
    exec (.powerOn i terminals) s =
      .next (if s.resetLine then holdModule i terminals s else moduleReset .powerOn i terminals s) := rfl

theorem exec_busReset (i : Interruption) (terminals : Bank 4 Bool) (s : State) :
    exec (.busReset i terminals) s =
      .next (if s.phase = .off then { s with resetLine := false } else moduleReset .busReset i terminals s) := rfl

theorem exec_busResetLineAsserted (i : Interruption) (s : State) :
    exec (.busResetLineAsserted i) s = .next (if s.phase = .off then { s with resetLine := true }
      else holdModule i (each s.outputs fun _ o => o.readback) s) := rfl

theorem each_each {α β γ : Type} {k : Nat} (b : Bank k α) (f : Fin k → α → β) (g : Fin k → β → γ) :
    each (each b f) g = each b fun j x => g j (f j x) :=
  bank_ext fun j => by simp only [sel_each]

/-- Settles O53: the four commands, what each phase shows, and the array after a cut-short write outside a scan and
in one. -/
theorem moduleResets : Obligations.ModuleResets := by
  refine ⟨?_, exchanging_ready_of_phase, fun i s hphase => ?_, fun i s hphase hw ha => ?_⟩
  · rintro i terminals s d rfl
    refine ⟨rfl, fun hline => ?_, fun hline => ?_, fun hphase => ?_, fun hphase => ?_, fun hphase => ⟨?_, ?_⟩⟩
    · rw [exec_powerOn, hline]
      rfl
    · rw [exec_powerOn, if_pos hline, hline]
      rfl
    · rw [exec_busReset, if_neg hphase]
      rfl
    · rw [exec_busResetLineAsserted, if_neg hphase, holdModule, each_each]
      rfl
    · rw [exec_busReset, if_pos hphase]
    · rw [exec_busResetLineAsserted, if_pos hphase]
  · rw [cutArray_of_not_scanning i hphase]
    refine ⟨fun hw => ?_, fun c hw => ?_, fun n c hw => ?_, fun n c hw => ?_,
      fun ch number plans results p hw hp _ ha _ => ?_⟩
    · rw [hw]; rfl
    · rw [hw]; rfl
    · rw [hw]; rfl
    · rw [hw]; rfl
    · rw [interruptJob_slotWrite hw hp]
      refine ⟨fun n hn => slot_leaveSlot_ne _ _ _ hn, fun hk => ?_, fun hk => ?_, fun hk hold => ?_, fun hk hnew => ?_⟩
      · rw [leaveSlot_set hk, slot_writeSlot_same _ _ ha, if_neg (by simp [hk])]
        rfl
      · rw [leaveSlot_retire hk, slot_writeSlot_same _ _ ha]
        rfl
      · rw [leaveSlot_create hk, slot_writeSlot_same _ _ ha, if_neg (by simp [hold]), hold]
        rfl
      · rw [leaveSlot_create hk, slot_writeSlot_same _ _ ha, if_pos ⟨hk, hnew⟩]
        rfl
  · rw [cutArray_of_scanning i hphase hw]
    refine ⟨fun n => ⟨slot_scanWrites_kept ha, fun hheader hfree => ?_⟩, fun st => ?_, fun sec => ?_, ?_⟩
    · rw [slot_scanWrites_freed ha hheader hfree, scanLeft]
      cases (i.written.find? fun x => x.1 == .slot n).map Prod.snd with
      | none => rfl
      | some l => cases l <;> rfl
    · simp only [scanWrites, sel_each]
      cases sel s.array.stations st with
      | valid c => rfl
      | failed => exact replaceRecord_cut i.written (.station st) _
    · simp only [scanWrites, sel_each]
      cases sel s.array.sections sec with
      | valid c => rfl
      | failed => exact replaceRecord_cut i.written (.sect sec) _
    · simp only [scanWrites]
      cases s.array.moduleRec with
      | valid c => rfl
      | failed => exact replaceRecord_cut i.written .moduleRec _

end Sys2Proof.Machine
end

section
/-! SUPPORT. Divergence lists by what their records are about (R97, R98): no list holds two records with one subject,
and findings, rebuilds and re-judgement keep it so. -/

namespace Sys2Proof.Machine

/-! ### What a record is about -/

/-- What a record of a divergence list is about: a parameter, or the station as a whole. -/
def DivRecord.subject : DivRecord → Option ParamNo
  | .param p _ _ => some p
  | .level _ _ _ => none

variable {l l' : List DivRecord} {d : DivRecord} {p : ParamNo} {r : StationRec}

@[simp] theorem subject_param (p : ParamNo) (k : ParamKind) (v : Option Word) :
    (DivRecord.param p k v).subject = some p := rfl
@[simp] theorem subject_level (k : LevelKind) (f : FormatNo) (x : Word) : (DivRecord.level k f x).subject = none := rfl

theorem about_iff : d.about p = true ↔ d.subject = some p := by
  cases d <;> simp [DivRecord.about]

theorem isLevel_iff : d.isLevel = true ↔ d.subject = none := by
  cases d <;> simp [DivRecord.isLevel]

theorem paramsListed_eq (l : List DivRecord) : paramsListed l = l.filterMap DivRecord.subject :=
  List.filterMap_congr fun d _ => by cases d <;> rfl

theorem mem_paramsListed : p ∈ paramsListed l ↔ some p ∈ l.map DivRecord.subject := by
  rw [paramsListed_eq, List.mem_filterMap, List.mem_map]

theorem any_about : (l.any fun d => d.about p) = true ↔ p ∈ paramsListed l := by
  simp only [List.any_eq_true, about_iff, mem_paramsListed, List.mem_map]

theorem any_isLevel : l.any DivRecord.isLevel = true ↔ none ∈ l.map DivRecord.subject := by
  simp only [List.any_eq_true, isLevel_iff, List.mem_map]

/-- Two records for one parameter, or two for the station, are two with one subject. -/
theorem subjects_nodup_iff : (l.map DivRecord.subject).Nodup ↔
    (paramsListed l).Nodup ∧ (l.filter DivRecord.isLevel).length ≤ 1 := by
  induction l with
  | nil => simp [paramsListed]
  | cons d l ih =>
    rw [List.map_cons, List.nodup_cons, ih]
    cases d with
    | param p k v =>
      rw [subject_param, ← mem_paramsListed, paramsListed_eq (_ :: l), List.filterMap_cons_some (subject_param p k v),
        ← paramsListed_eq, List.nodup_cons, List.filter_cons_of_neg (by simp [DivRecord.isLevel]), and_assoc]
    | level k f x =>
      have hnone : none ∉ l.map DivRecord.subject ↔ (l.filter DivRecord.isLevel).length = 0 := by
        rw [← any_isLevel]
        simp
      rw [subject_level, hnone, paramsListed_eq (_ :: l), List.filterMap_cons_none (subject_level k f x),
        ← paramsListed_eq, List.filter_cons_of_pos rfl, List.length_cons]
      constructor
      · rintro ⟨h0, hn, -⟩
        exact ⟨hn, by omega⟩
      · rintro ⟨hn, hl⟩
        exact ⟨by omega, hn, by omega⟩

/-! ### The law of a list (R98) -/

/-- A list is as R98 has it: at most 8 records, no two with one subject. -/
def ListOk (l : List DivRecord) : Prop := l.length ≤ 8 ∧ (l.map DivRecord.subject).Nodup

theorem listOk_iff : ListOk l ↔
    l.length ≤ 8 ∧ (paramsListed l).Nodup ∧ (l.filter DivRecord.isLevel).length ≤ 1 :=
  and_congr_right fun _ => subjects_nodup_iff

theorem listOk_nil : ListOk [] := ⟨Nat.zero_le _, List.nodup_nil⟩

/-- The removal of records keeps R98. -/
theorem ListOk.filter (h : ListOk l) (q : DivRecord → Bool) : ListOk (l.filter q) :=
  ⟨(List.length_filter_le _ _).trans h.1, h.2.sublist (List.filter_sublist.map _)⟩

/-- A record that takes its place in the list, about what no other is about, keeps R98. -/
theorem ListOk.append (h : ListOk r.list) (hd : d.subject ∉ r.list.map DivRecord.subject) :
    ListOk (r.append d).list := by
  refine ⟨append_length d h.1, ?_⟩
  unfold StationRec.append
  split
  · rw [List.map_append]
    exact List.nodup_append.2 ⟨h.2, List.nodup_singleton _, fun a ha b hb hab =>
      hd (by rwa [← List.mem_singleton.1 hb, ← hab])⟩
  · exact h.2

/-- An update in place keeps what each record is about. -/
theorem ListOk.map {g : DivRecord → DivRecord} (h : ListOk l) (hg : ∀ d, (g d).subject = d.subject) :
    ListOk (l.map g) := by
  refine ⟨by simpa using h.1, ?_⟩
  rw [List.map_map, show DivRecord.subject ∘ g = DivRecord.subject from funext hg]
  exact h.2

theorem ListOk.find (h : ListOk r.list) (p : ParamNo) (k : ParamKind) (v : Option Word) :
    ListOk (r.find p k v).list := by
  unfold StationRec.find
  split
  · refine h.map fun d => ?_
    cases d with
    | param q k' old =>
      dsimp only
      split
      · next hq => rw [subject_param, subject_param, hq]
      · rfl
    | level k' f x => rfl
  · next hp => exact h.append (mt mem_paramsListed.2 (mt any_about.2 hp))

theorem ListOk.findLevel (h : ListOk r.list) (k : LevelKind) (f : FormatNo) (x : Word) :
    ListOk (r.findLevel k f x).list := by
  unfold StationRec.findLevel
  split
  · refine h.map fun d => ?_
    split
    · next hd => exact (isLevel_iff.1 hd).symm
    · rfl
  · next hl => exact h.append (mt any_isLevel.2 hl)

theorem pick_pairwise {n : Nat} (q : Fin n → Bool) : (pick q).Pairwise (· < ·) :=
  (List.pairwise_lt_finRange n).filter _

theorem damagedParams_pairwise (m : SlotMap Entry) (st : StationNo) (f : FormatNo) :
    (damagedParams m st f).Pairwise (· < ·) :=
  pick_pairwise _

/-- A rebuilt list is as R98 has it, whatever the record was (R100). -/
theorem listOk_rebuildRec (m : SlotMap Entry) (st : StationNo) (r : StationRec) : ListOk (rebuildRec m st r).list := by
  refine ⟨rebuildRec_length m st r, ?_⟩
  have hnodup : ((damagedParams m st r.persist.format).take Config.listCapacity).Nodup :=
    ((damagedParams_pairwise m st _).imp fun h => ne_of_lt h).sublist (List.take_sublist _ _)
  have hsubjects : (rebuildRec m st r).list.map DivRecord.subject =
      ((damagedParams m st r.persist.format).take Config.listCapacity).map some := by
    simp only [rebuildRec, List.map_map]
    rfl
  rw [hsubjects]
  exact hnodup.map (Option.some_injective _)

theorem heldFor_eq_none (h : r.heldFor p = none) : p ∉ paramsListed r.list := by
  have hfind : (r.list.find? fun d => d.about p) = none := Option.map_eq_none_iff.1 h
  rw [← any_about]
  simpa using hfind

theorem ListOk.rejudgeRec (h : ListOk r.list) (p : ParamNo) (before : Resolution) (now : Option Entry) :
    ListOk (rejudgeRec p before now r).list := by
  unfold Machine.rejudgeRec
  split
  · cases now with
    | none => exact h.find _ _ _
    | some e =>
      dsimp only
      split
      · exact h.find _ _ _
      · split
        · exact h.find _ _ _
        · exact h.filter _
  · split
    · exact h
    · exact h.filter _
  · next hp =>
    split
    · exact h.append (mt mem_paramsListed.2 (heldFor_eq_none hp))
    · exact h

end Sys2Proof.Machine
end

section
/-! SUPPORT. What the requests and events of the other blocks leave alone: the stations' and the sections' records. -/

namespace Sys2Proof.Machine

/-- From `s` to `t` no station's and no section's record changes. -/
structure RecordsFrame (s t : State) : Prop where
  stations : t.stations = s.stations
  sections : t.sections = s.sections

namespace RecordsFrame

variable {s t u : State}

@[refl] theorem refl (s : State) : RecordsFrame s s := ⟨rfl, rfl⟩

theorem trans (h : RecordsFrame s t) (h' : RecordsFrame t u) : RecordsFrame s u :=
  ⟨h'.stations.trans h.stations, h'.sections.trans h.sections⟩

theorem takeItem (s : State) : RecordsFrame s (takeItem s) := ⟨takeItem_stations s, takeItem_sections s⟩

theorem enqueue (i : WriteItem) (h : RecordsFrame s t) : RecordsFrame s (enqueue i t) :=
  h.trans ⟨enqueue_stations i t, enqueue_sections i t⟩

theorem settle (b : State) (h : RecordsFrame s t) : RecordsFrame s (settle b t) := h.trans ⟨rfl, rfl⟩

theorem reply (ch : ChannelNo) (r : Reply) (s : State) : RecordsFrame s (reply ch r s) := by
  cases r <;> exact ⟨rfl, rfl⟩

theorem ite (b : Bool) (h : RecordsFrame s t) : RecordsFrame s (if b then t else s) := by
  cases b
  · exact .refl s
  · exact h

end RecordsFrame

/-! ### The requests of the other blocks -/

variable (ch : ChannelNo) (a : Args) (s : State)

theorem runModuleInfo_records : RecordsFrame s (runModuleInfo a s).1 := by
  simp only [runModuleInfo]; split <;> exact ⟨rfl, rfl⟩

theorem runSetEventMask_records : RecordsFrame s (runSetEventMask ch a s).1 := by
  simp only [runSetEventMask]; split <;> exact ⟨rfl, rfl⟩

theorem runSignOn_records : RecordsFrame s (runSignOn ch a s).1 := by
  simp only [runSignOn]; repeat' split
  all_goals exact ⟨rfl, rfl⟩

theorem runSetRoleCode_records : RecordsFrame s (runSetRoleCode a s).1 := by
  simp only [runSetRoleCode]
  split
  · exact .enqueue _ ⟨rfl, rfl⟩
  · exact .refl s

theorem runOpenRelease_records : RecordsFrame s (runOpenRelease a s).1 := by
  simp only [runOpenRelease]; split <;> exact ⟨rfl, rfl⟩

theorem runSetLifetime_records : RecordsFrame s (runSetLifetime a s).1 := by
  simp only [runSetLifetime]
  split
  · exact .refl s
  · exact .enqueue _ ⟨rfl, rfl⟩

theorem runListEntries_records : RecordsFrame s (runListEntries ch a s).1 := by
  simp only [runListEntries]; repeat' split
  all_goals exact ⟨rfl, rfl⟩

theorem runNextEntry_records : RecordsFrame s (runNextEntry ch s).1 := by
  simp only [runNextEntry]; repeat' split
  all_goals exact ⟨rfl, rfl⟩

theorem addChange_records (c : Change) : RecordsFrame s (addChange ch c s).1 := by
  simp only [addChange]; repeat' split
  all_goals exact ⟨rfl, rfl⟩

theorem amend_records (f : Change → Option Change) : RecordsFrame s (amend ch f s).1 := by
  simp only [amend]; repeat' split
  all_goals exact ⟨rfl, rfl⟩

theorem runDraftSet_records : RecordsFrame s (runDraftSet ch a s).1 := by
  simp only [runDraftSet]
  split
  · exact .refl s
  · exact addChange_records _ _ _

theorem runDraftCreate_records : RecordsFrame s (runDraftCreate ch a s).1 := by
  simp only [runDraftCreate]
  split
  · exact addChange_records _ _ _
  · exact .refl s

theorem runDraftRetire_records : RecordsFrame s (runDraftRetire ch a s).1 := by
  simp only [runDraftRetire]
  split
  · exact .refl s
  · exact addChange_records _ _ _

theorem runDraftBounds_records : RecordsFrame s (runDraftBounds ch a s).1 := by
  simp only [runDraftBounds]
  split
  · exact amend_records _ _ _
  · exact .refl s

theorem runDraftPartner_records : RecordsFrame s (runDraftPartner ch a s).1 := by
  simp only [runDraftPartner]
  split
  · exact .refl s
  · exact amend_records _ _ _

theorem runDraftSubmit_records : RecordsFrame s (runDraftSubmit ch s).1 := by
  simp only [runDraftSubmit]; repeat' split
  all_goals exact ⟨rfl, rfl⟩

theorem runApprove_records : RecordsFrame s (runApprove ch a s).1 := by
  simp only [runApprove]
  split
  · exact .refl s
  · split
    · exact .refl s
    · split
      · exact .refl s
      · exact .enqueue _ ⟨rfl, rfl⟩

theorem runReject_records : RecordsFrame s (runReject ch a s).1 := by
  simp only [runReject]; repeat' split
  all_goals exact ⟨rfl, rfl⟩

theorem runWithdraw_records : RecordsFrame s (runWithdraw ch a s).1 := by
  simp only [runWithdraw]; repeat' split
  all_goals exact ⟨rfl, rfl⟩

theorem runListProposals_records : RecordsFrame s (runListProposals ch s).1 := by
  simp only [runListProposals]; split <;> exact ⟨rfl, rfl⟩

theorem runNextProposal_records : RecordsFrame s (runNextProposal ch s).1 := by
  simp only [runNextProposal]; repeat' split
  all_goals exact ⟨rfl, rfl⟩

theorem runSetOutputMode_records : RecordsFrame s (runSetOutputMode ch a s).1 := by
  simp only [runSetOutputMode]; repeat' split
  all_goals exact ⟨rfl, rfl⟩

/-- The requests by which records of stations or sections change. -/
def recordRequests : List RequestSpec :=
  [enrollRequest, unenrollRequest, reportValueRequest, reportDigestRequest, holdRequest, releaseHoldRequest,
    changeoverRequest, abortChangeoverRequest, setSectionRequest]

/-- Every other request leaves the records of the stations and sections. -/
theorem requestOf_records {code : Nat} {r : RequestSpec} (h : requestOf code = some r) :
    r ∈ recordRequests ∨ RecordsFrame s (r.run ch a s).1 := by
  unfold requestOf at h
  split at h <;> cases h
  · exact .inr (runModuleInfo_records a s)
  · exact .inr ⟨rfl, rfl⟩
  · exact .inr (runSetEventMask_records ch a s)
  · exact .inr (runSignOn_records ch a s)
  · exact .inr ⟨rfl, rfl⟩
  · exact .inr (runSetRoleCode_records a s)
  · exact .inr (runOpenRelease_records a s)
  · exact .inr ⟨rfl, rfl⟩
  · exact .inr (runSetLifetime_records a s)
  · exact .inr (.refl s)
  · exact .inr (.refl s)
  · exact .inr (.refl s)
  · exact .inr (.refl s)
  · exact .inr (runListEntries_records ch a s)
  · exact .inr (runNextEntry_records ch s)
  · exact .inr (.refl s)
  · exact .inr ⟨rfl, rfl⟩
  · exact .inr (runDraftSet_records ch a s)
  · exact .inr (runDraftCreate_records ch a s)
  · exact .inr (runDraftRetire_records ch a s)
  · exact .inr (runDraftBounds_records ch a s)
  · exact .inr (amend_records ch s _)
  · exact .inr (runDraftPartner_records ch a s)
  · exact .inr (runDraftSubmit_records ch s)
  · exact .inr ⟨rfl, rfl⟩
  · exact .inr (runApprove_records ch a s)
  · exact .inr (runReject_records ch a s)
  · exact .inr (runWithdraw_records ch a s)
  · exact .inr (runListProposals_records ch s)
  · exact .inr (runNextProposal_records ch s)
  · exact .inr (.refl s)
  · exact .inl (by simp [recordRequests])
  · exact .inl (by simp [recordRequests])
  · exact .inl (by simp [recordRequests])
  · exact .inl (by simp [recordRequests])
  · exact .inl (by simp [recordRequests])
  · exact .inl (by simp [recordRequests])
  · exact .inr (.refl s)
  · exact .inr (.refl s)
  · exact .inl (by simp [recordRequests])
  · exact .inl (by simp [recordRequests])
  · exact .inl (by simp [recordRequests])
  · exact .inr (.refl s)
  · exact .inr (runSetOutputMode_records ch a s)

/-! ### The other commands -/

/-- The commands, beside requests and images, by which records of stations or sections change. -/
def isRecordEvent : Instr → Bool
  | .windowExpiry _ => true
  | .deadlineExpiry _ => true
  | .proposalItemCompletion _ => true
  | .powerOn _ _ => true
  | .busReset _ _ => true
  | .busResetLineAsserted _ => true
  | .logicSupplyLoss _ => true
  | .startUpScanEnd _ => true
  | .imageExchange _ => true
  | _ => false

variable {s}

/-- Every command but these and the requests leaves the records of the stations and sections. -/
theorem exec_records {c : Instr} {t : State} (hreq : requestParts c = none) (hc : isRecordEvent c = false)
    (h : exec c s = .next t) : RecordsFrame s t := by
  cases c <;> simp only [requestParts, isRecordEvent, reduceCtorEq] at hreq hc
  case proposalExpiry n =>
    cases h
    split
    · exact .refl s
    · exact .ite _ (.settle s ⟨rfl, rfl⟩)
  case readbackChange sec level =>
    cases h
    split
    · exact .refl s
    · exact .settle s ⟨rfl, rfl⟩
  case outputFaultDelayExpiry sec =>
    cases h
    split
    · exact .settle s ⟨rfl, rfl⟩
    · exact .refl s
  case recordWriteCompletion o =>
    rcases execRecordWriteCompletion_cases h with rfl | ⟨j, -, rfl⟩
    · exact .refl t
    · have hend : RecordsFrame s (endRecord o j s) := ⟨rfl, rfl⟩
      exact (hend.settle s).trans (.takeItem _)
  case slotWriteCompletion o =>
    rcases execSlotWriteCompletion_cases h with rfl | ⟨_, _, _, _, _, -, -, rfl⟩
    · exact .refl t
    · exact ⟨rfl, rfl⟩
  case fieldSupplyLoss => cases h; exact ⟨rfl, rfl⟩
  case fieldSupplyReturn => cases h; exact ⟨rfl, rfl⟩
  all_goals
    cases h
    exact .ite _ ⟨rfl, rfl⟩

end Sys2Proof.Machine
end

section
/-! PROOFS. O57: every step keeps the law of the divergence lists (R98) and the emptiness of unenrolled records
(R94). -/

namespace Sys2Proof.Machine

/-! ### One record -/

/-- A station's record is as R98 and R94 have it. -/
structure StationRec.Lawful (r : StationRec) : Prop where
  list : ListOk r.list
  idle : r.persist.enrolled = false → r = .idle r.persist

variable {r r' : StationRec}

theorem StationRec.Lawful.of_enrolled (he : r.persist.enrolled = true) (hl : ListOk r.list) : r.Lawful :=
  ⟨hl, fun h => by rw [he] at h; cases h⟩

theorem lawful_idle (p : StationPersist) : (StationRec.idle p).Lawful := ⟨listOk_nil, fun _ => rfl⟩

/-- A rebuild needs nothing of the record but that its station is enrolled. -/
theorem lawful_rebuildRec (m : SlotMap Entry) (st : StationNo) (he : r.persist.enrolled = true) :
    (rebuildRec m st r).Lawful :=
  .of_enrolled he (listOk_rebuildRec m st r)

theorem lawful_enrollRec (m : SlotMap Entry) (st : StationNo) (sec : SectionNo) (w : Nat) (f : FormatNo)
    (r : StationRec) : (enrollRec m st sec w f r).Lawful :=
  lawful_rebuildRec m st (r := { r with persist := ⟨true, sec, w, f⟩ }) rfl

theorem lawful_adoptRec (m : SlotMap Entry) (st : StationNo) (f : FormatNo) (he : r.persist.enrolled = true) :
    (adoptRec m st f r).Lawful := by
  unfold adoptRec
  have hl := listOk_rebuildRec m st { r with persist := { r.persist with format := f }, pending := false }
  generalize hx : rebuildRec m st { r with persist := { r.persist with format := f }, pending := false } = x at hl
  exact .of_enrolled (by rw [← hx]; exact he) hl

theorem lawful_restoreStation (m : SlotMap Entry) (st : StationNo) (p : StationPersist) :
    (restoreStation m st p).Lawful := by
  unfold restoreStation
  split
  · next he => exact lawful_rebuildRec m st he
  · exact lawful_idle p

/-- A change that leaves the list and the persisted part of an enrolled station's record. -/
theorem StationRec.Lawful.congr (h : r.Lawful) (he : r.persist.enrolled = true) (hp : r'.persist = r.persist)
    (hl : r'.list = r.list) : r'.Lawful :=
  .of_enrolled (hp ▸ he) (hl ▸ h.list)

theorem StationRec.Lawful.findLevel (h : r.Lawful) (he : r.persist.enrolled = true) (k : LevelKind) (f : FormatNo)
    (x : Word) : (r.findLevel k f x).Lawful :=
  .of_enrolled (by rw [findLevel_frame]; exact he) (h.list.findLevel k f x)

theorem StationRec.Lawful.recordValue (h : r.Lawful) (he : r.persist.enrolled = true) (p : ParamNo) (v : Word)
    (finding : Option ParamKind) : (recordValue p v finding r).Lawful := by
  cases finding with
  | none => exact .of_enrolled he (h.list.filter _)
  | some k => exact .of_enrolled (by rw [Machine.recordValue, find_frame]; exact he) (h.list.find p k (some v))

theorem StationRec.Lawful.rejudgeRec (h : r.Lawful) (he : r.persist.enrolled = true) (p : ParamNo)
    (before : Resolution) (now : Option Entry) : (rejudgeRec p before now r).Lawful :=
  .of_enrolled (by rw [rejudgeRec_persist]; exact he) (h.list.rejudgeRec p before now)

theorem StationRec.Lawful.tick (h : r.Lawful) : r.tick.Lawful where
  list := h.list
  idle he := by
    have hr := h.idle he
    rw [hr]
    rfl

/-! ### The records of all stations -/

/-- Every station's record is as R98 and R94 have it. -/
def StationsLaw (s : State) : Prop := ∀ st, (sel s.stations st).Lawful

variable {s t u : State}

theorem stationsLaw_iff : StationsLaw s ↔ ListLaw s ∧ IdleLaw s :=
  ⟨fun h => ⟨fun st => listOk_iff.1 (h st).list, fun st => (h st).idle⟩,
    fun h st => ⟨listOk_iff.2 (h.1 st), h.2 st⟩⟩

namespace StationsLaw

theorem congr (h : StationsLaw s) (ht : t.stations = s.stations) : StationsLaw t := by
  unfold StationsLaw
  rw [ht]
  exact h

theorem frame (h : StationsLaw s) (ht : RecordsFrame s t) : StationsLaw t := h.congr ht.stations

theorem setStation (h : StationsLaw s) (st : StationNo) (hr : r.Lawful) : StationsLaw (s.setStation st r) := by
  intro st'
  rw [setStation_stations, sel_upd]
  split
  · exact hr
  · exact h st'

/-- A change of every record. -/
theorem each (h : StationsLaw s) {f : StationNo → StationRec → StationRec} (ht : t.stations = each s.stations f)
    (hf : ∀ st r, r.Lawful → (f st r).Lawful) : StationsLaw t := by
  intro st
  rw [ht, sel_each]
  exact hf st _ (h st)

theorem enqueue (h : StationsLaw s) (i : WriteItem) : StationsLaw (enqueue i s) := h.congr (enqueue_stations i s)

theorem recompute (h : StationsLaw s) (sec : SectionNo) : StationsLaw (recompute sec s) :=
  h.congr (recompute_stations sec s)

theorem settle (h : StationsLaw s) (b : State) : StationsLaw (settle b s) := h.congr rfl

theorem setSectionRec (h : StationsLaw s) (sec : SectionNo) (x : SectionRec) : StationsLaw (s.setSectionRec sec x) :=
  h.congr rfl

theorem clearPending (h : StationsLaw s) (sec : SectionNo) : StationsLaw (clearPending sec s) := by
  refine h.each (clearPending_stations sec s) fun st r hr => ?_
  split
  · next he => exact hr.congr (Bool.and_eq_true_iff.1 he).1 rfl rfl
  · exact hr

theorem markPending (h : StationsLaw s) (sec : SectionNo) (f : FormatNo) : StationsLaw (markPending sec f s) := by
  refine h.each (markPending_stations sec f s) fun st r hr => ?_
  split
  · next he => exact hr.congr (Bool.and_eq_true_iff.1 (Bool.and_eq_true_iff.1 he).1).1 rfl rfl
  · exact hr

theorem endChangeover (h : StationsLaw s) (sec : SectionNo) : StationsLaw (endChangeover sec s) := by
  unfold Machine.endChangeover
  dsimp only
  exact ((h.clearPending sec).setSectionRec sec _).recompute sec

theorem adoptionNotice (h : StationsLaw s) (sec : SectionNo) : StationsLaw (adoptionNotice sec s) := by
  unfold Machine.adoptionNotice
  split
  · exact h.endChangeover sec
  · exact h

theorem beginChangeover (h : StationsLaw s) (sec : SectionNo) (f : FormatNo) :
    StationsLaw (beginChangeover sec f s) := by
  have hmark : ∀ x, StationsLaw (Machine.markPending sec f (s.setSectionRec sec x)) := fun x =>
    (h.setSectionRec sec x).markPending sec f
  unfold Machine.beginChangeover
  dsimp only
  split
  · exact ((hmark _).setSectionRec sec _).enqueue _
  · exact hmark _

theorem rejudge (h : StationsLaw s) (before : SlotMap Entry) (keys : List Key) :
    StationsLaw (rejudge before keys s) := by
  unfold Machine.rejudge
  generalize targetsOf keys = l
  induction l generalizing s with
  | nil => exact h
  | cons x l ih =>
    refine ih ?_
    unfold rejudgeOne
    dsimp only
    split
    · next hj => exact h.setStation _ ((h x.1).rejudgeRec (judged_iff.1 hj).1.1 _ _ _)
    · exact h

end StationsLaw

/-! ### The requests -/

variable (ch : ChannelNo) (a : Args)

theorem runEnroll_stationsLaw (h : StationsLaw s) : StationsLaw (runEnroll a s).1 := by
  simp only [runEnroll]
  split
  · next st sec _ _ =>
    have henrolled : ∀ w f, StationsLaw (recompute sec (enqueue (.station st)
        (s.setStation st (enrollRec s.slots st sec w f (sel s.stations st))))) := fun w f =>
      ((h.setStation st (lawful_enrollRec _ _ _ _ _ _)).enqueue _).recompute _
    split
    · exact h
    · split
      · exact h
      · dsimp only
        split
        · exact (henrolled _ _).recompute _
        · exact henrolled _ _
  · exact h

theorem runUnenroll_stationsLaw (h : StationsLaw s) : StationsLaw (runUnenroll a s).1 := by
  simp only [runUnenroll]
  split
  · exact h
  · split
    · exact h
    · split
      · exact h
      · exact ((h.setStation _ (lawful_idle _)).enqueue _).recompute _

theorem runReportValue_stationsLaw (h : StationsLaw s) : StationsLaw (runReportValue a s).1 := by
  simp only [runReportValue]
  split
  · next st p _ _ =>
    split
    · exact h
    · next he =>
      split
      · exact h
      · exact h.setStation st ((h st).recordValue (by simpa using he) _ _ _)
  · exact h

theorem judgeDigest_stationsLaw (h : StationsLaw s) (st : StationNo) (f : FormatNo) (d : DigestPair) (hr : r.Lawful)
    (he : r.persist.enrolled = true) : StationsLaw (judgeDigest st f d r s).1 := by
  have hlevel : ∀ k, StationsLaw (s.setStation st (r.findLevel k f d.digest)) := fun k =>
    h.setStation st (hr.findLevel he _ _ _)
  simp only [judgeDigest]
  split
  · simp only [reportActive]
    split
    · exact h.setStation st (.of_enrolled he (hr.list.filter _))
    · exact hlevel _
  · split
    · simp only [reportAdoption]
      split
      · exact ((h.setStation st (lawful_adoptRec _ st f he)).enqueue _).adoptionNotice _
      · exact hlevel _
    · exact hlevel _

theorem runReportDigest_stationsLaw (h : StationsLaw s) : StationsLaw (runReportDigest a s).1 := by
  simp only [runReportDigest]
  split
  · next st f _ _ =>
    split
    · exact h
    · split
      · exact h
      · next he =>
        split
        · exact h
        · have he : (sel s.stations st).persist.enrolled = true := by simpa using he
          exact judgeDigest_stationsLaw h st f _ ((h st).congr he rfl rfl) he
  · exact h

theorem runHold_stationsLaw (h : StationsLaw s) : StationsLaw (runHold ch a s).1 := by
  simp only [runHold]
  split
  · exact h
  · next st _ =>
    split
    · exact h
    · next he =>
      split
      · exact h.setStation st ((h st).congr (by simpa using he) rfl rfl)
      · split <;> exact h

theorem runReleaseHold_stationsLaw (h : StationsLaw s) : StationsLaw (runReleaseHold ch a s).1 := by
  simp only [runReleaseHold]
  split
  · exact h
  · next st _ =>
    split
    · exact h
    · next he =>
      split
      · exact h
      · split
        · exact h
        · exact h.setStation st (lawful_rebuildRec _ _ (by simpa using he))

theorem runChangeover_stationsLaw (h : StationsLaw s) : StationsLaw (runChangeover a s).1 := by
  simp only [runChangeover]
  split
  · split
    · exact h
    · split
      · exact h
      · dsimp only
        exact h.beginChangeover _ _
  · exact h

theorem runAbortChangeover_stationsLaw (h : StationsLaw s) : StationsLaw (runAbortChangeover a s).1 := by
  simp only [runAbortChangeover]
  split
  · exact h
  · split
    · dsimp only
      exact h.endChangeover _
    · exact h

theorem runSetSection_stationsLaw (h : StationsLaw s) : StationsLaw (runSetSection a s).1 := by
  simp only [runSetSection]
  split
  · exact h
  · next sec _ =>
    split
    · exact h
    · split
      · exact h
      · exact (h.setSectionRec sec _).enqueue _

/-- What any owning block does keeps the stations' records lawful. -/
theorem requestOf_stationsLaw {code : Nat} {q : RequestSpec} (hq : requestOf code = some q) (h : StationsLaw s) :
    StationsLaw (q.run ch a s).1 := by
  rcases requestOf_records ch a s hq with hmem | hframe
  · simp only [recordRequests, List.mem_cons, List.not_mem_nil, or_false] at hmem
    rcases hmem with rfl | rfl | rfl | rfl | rfl | rfl | rfl | rfl | rfl
    · exact runEnroll_stationsLaw a h
    · exact runUnenroll_stationsLaw a h
    · exact runReportValue_stationsLaw a h
    · exact runReportDigest_stationsLaw a h
    · exact runHold_stationsLaw ch a h
    · exact runReleaseHold_stationsLaw ch a h
    · exact runChangeover_stationsLaw a h
    · exact runAbortChangeover_stationsLaw a h
    · exact runSetSection_stationsLaw a h
  · exact h.frame hframe

theorem takeCode_stationsLaw (code : Byte) (h : StationsLaw s) : StationsLaw (takeCode ch code a s) := by
  have harrive : ∀ req, StationsLaw (arrive ch req s) := fun req => h.congr rfl
  unfold takeCode
  split
  · next q hq =>
    unfold takeRequest
    split
    · unfold handOn
      split
      · exact (harrive _).frame (.reply _ _ _)
      · have hrun := requestOf_stationsLaw ch a hq (harrive ⟨q.code, a⟩)
        exact hrun.frame (((RecordsFrame.refl _).settle _).trans (.reply _ _ _))
    · exact h
  · unfold takeUnlisted
    split
    · exact (harrive _).frame (.reply _ _ _)
    · exact h

/-! ### The other commands -/

variable {ch a}

theorem takeControl_stationsLaw (image : OutputImage) (h : StationsLaw s) : StationsLaw (takeControl image s ch) := by
  simp only [takeControl]
  split
  · exact h.congr rfl
  · split
    · exact h.congr rfl
    · split
      · exact takeCode_stationsLaw _ _ _ h
      · exact h.congr rfl

theorem execImageExchange_stationsLaw {image : OutputImage} (ht : execImageExchange image s = .next t)
    (h : StationsLaw s) : StationsLaw t := by
  have hfold : ∀ (l : List ChannelNo) (u : State), StationsLaw u → StationsLaw (l.foldl (takeControl image) u) := by
    intro l
    induction l with
    | nil => exact fun _ hu => hu
    | cons ch l ih => exact fun u hu => ih _ (takeControl_stationsLaw image hu)
  cases ht
  split
  · exact hfold _ _ (h.congr (t := beginExchange s) rfl)
  · exact h

/-- The working form discarded leaves every station as delivered, unenrolled (R87, R73). -/
theorem stationsLaw_of_reset (ht : t.stations = State.reset.stations) : StationsLaw t := by
  intro st
  rw [ht]
  simp only [State.reset, sel_replicate]
  exact lawful_idle _

theorem execWindowExpiry_stationsLaw {st : StationNo} (ht : execWindowExpiry st s = .next t) (h : StationsLaw s) :
    StationsLaw t := by
  cases ht
  split
  · next hdue =>
    have he : (sel s.stations st).persist.enrolled = true := by
      by_contra hne
      rw [(h st).idle (by simpa using hne)] at hdue
      cases hdue
    have hexpired : StationRec.Lawful { sel s.stations st with timer := none, stale := true } :=
      (h st).congr he rfl rfl
    exact (h.setStation st hexpired).settle s
  · exact h

theorem execDeadlineExpiry_stationsLaw {sec : SectionNo} (ht : execDeadlineExpiry sec s = .next t)
    (h : StationsLaw s) : StationsLaw t := by
  cases ht
  split
  · exact (h.endChangeover sec).settle s
  · exact h

theorem applyCompletion_stationsLaw (all : List SlotResult) (h : StationsLaw s) :
    StationsLaw (applyCompletion all s) := by
  unfold applyCompletion
  dsimp only
  refine StationsLaw.rejudge ?_ _ _
  exact h.congr rfl

theorem execProposalItemCompletion_stationsLaw {o : SlotOutcome} (ht : exec (.proposalItemCompletion o) s = .next t)
    (h : StationsLaw s) : StationsLaw t := by
  rcases execProposalItemCompletion_cases ht with rfl | ⟨ch, number, plans, results, p, -, -, -, rfl⟩
  · exact h
  · have hall := applyCompletion_stationsLaw (plans.zip (results ++ [(writeSlotPlan p o s.array).2]))
      (h.congr (t := { s with array := (writeSlotPlan p o s.array).1 }) rfl)
    refine hall.congr ?_
    simp only [endItem, completeItem, takeItem_stations, deliver_stations, settle_stations, removeProposal_stations]

theorem scanEnd_records (s : State) : RecordsFrame s (flagFaults (openModule s)) := by
  unfold flagFaults
  split <;> exact ⟨rfl, rfl⟩

theorem loadArray_stationsLaw (w : ScanWrites) (s : State) : StationsLaw (loadArray w s) := by
  intro st
  rw [loadArray_stations, sel_each]
  exact lawful_restoreStation _ _ _

theorem scanEnd_stationsLaw (h : StationsLaw s) : StationsLaw (flagFaults (openModule (recomputeAll s))) := by
  have hrecompute : StationsLaw (recomputeAll s) := h.congr (recomputeAll_stations s)
  exact hrecompute.frame (scanEnd_records _)

theorem execStartUpScanEnd_stationsLaw {w : ScanWrites} (ht : exec (.startUpScanEnd w) s = .next t)
    (h : StationsLaw s) : StationsLaw t := by
  rcases execStartUpScanEnd_eq ht with ht | ⟨-, ht⟩ <;> rw [ht]
  · exact h
  · exact scanEnd_stationsLaw (loadArray_stationsLaw w s)

/-- R98 and R94 at every command. -/
theorem exec_stationsLaw {c : Instr} (ht : exec c s = .next t) (h : StationsLaw s) : StationsLaw t := by
  cases hreq : requestParts c with
  | some x =>
    rw [exec_request hreq] at ht
    cases ht
    exact takeCode_stationsLaw _ _ _ h
  | none =>
    cases hc : isRecordEvent c with
    | false => exact h.frame (exec_records hreq hc ht)
    | true =>
      cases c <;> simp only [isRecordEvent, reduceCtorEq] at hc
      case imageExchange image => exact execImageExchange_stationsLaw ht h
      case windowExpiry st => exact execWindowExpiry_stationsLaw ht h
      case deadlineExpiry sec => exact execDeadlineExpiry_stationsLaw ht h
      case proposalItemCompletion o => exact execProposalItemCompletion_stationsLaw ht h
      case powerOn i l => cases ht; split <;> exact stationsLaw_of_reset rfl
      case busReset i l =>
        cases ht
        split
        · exact h.congr rfl
        · exact stationsLaw_of_reset rfl
      case busResetLineAsserted i =>
        cases ht
        split
        · exact h.congr rfl
        · exact stationsLaw_of_reset rfl
      case logicSupplyLoss i => cases ht; exact stationsLaw_of_reset rfl
      case startUpScanEnd w => exact execStartUpScanEnd_stationsLaw ht h

/-- Settles O57: both laws are one law of each station's record, which every command keeps, and a millisecond too. -/
theorem stepKeepsListLaw : Obligations.StepKeepsListLaw := by
  intro s t hlist hidle hstep
  have h : StationsLaw s := stationsLaw_iff.2 ⟨hlist, hidle⟩
  refine stationsLaw_iff.1 ?_
  rcases step_cases hstep with ⟨c, rest, -, hstep⟩ | rfl
  · exact exec_stationsLaw hstep (h.congr rfl)
  · exact h.each rfl fun _ _ hr => hr.tick

end Sys2Proof.Machine
end

section
/-! SUPPORT. A request that passes the channel's checks, by what its owning block does with the request arrived. -/

namespace Sys2Proof.Machine

/-- A request that passes the checks: what its owning block does beside the arrival settles, and is answered. -/
theorem exec_event {c : Instr} {ch : ChannelNo} {code : Byte} {a : Args} {s t : State} {used : Nat}
    {roles : List Role} {r : RequestSpec} {answer : AnswerCode} {result : List Byte}
    (hc : requestParts c = some (ch, code, a)) (hr : requestOf code.toNat = some r)
    (hl : listedRequest code = some (used, roles)) (hp : Passes used roles ch a s)
    (hrun : r.run ch a (arrive ch ⟨r.code, a⟩ s) = (arrive ch ⟨r.code, a⟩ t, .now answer result)) :
    exec c s = .next (answered ch answer result (settle s t)) := by
  obtain ⟨r', hr', he⟩ := exec_passes hc hl hp
  obtain rfl : r' = r := Option.some.inj (hr'.symm.trans hr)
  rw [he, runRequest, hrun, settle_arrive]
  exact congrArg _ (deliver_arrive ch _ _ _ _)

end Sys2Proof.Machine
end

section
/-! PROOFS. O29 and O36: the derived state of a station (R115), and its record and list as they are read (R99, R117). -/

namespace Sys2Proof.Machine

/-! ### The derived state (R115) -/

variable {r : StationRec}

theorem derivedState_unenrolled (he : r.persist.enrolled = false) : derivedState r = .unenrolled := by
  simp [derivedState, he]

theorem derivedState_held {c : ChannelNo} (he : r.persist.enrolled = true) (hh : r.holder = some c) :
    derivedState r = .held := by
  simp [derivedState, he, hh]

/-- The derived state of an enrolled station that no channel holds. -/
theorem derivedState_free (he : r.persist.enrolled = true) (hh : r.holder = none) :
    derivedState r =
      if r.stale then .stale
      else if !r.list.isEmpty || r.overflow then .divergent
      else if !r.digestSeen then .awaiting
      else .conforming := by
  simp [derivedState, he, hh]

/-- Settles O29: the conditions of R115 one after another. -/
theorem derivedStateOrder : Obligations.DerivedStateOrder := by
  refine fun r => ⟨derivedState_unenrolled, fun he => ⟨fun c => derivedState_held he, fun hh => ?_⟩⟩
  rw [derivedState_free he hh]
  refine ⟨fun hs => if_pos hs, fun hs => ?_⟩
  rw [if_neg (by rw [hs]; exact Bool.false_ne_true)]
  refine ⟨fun hd => if_pos (by simpa using hd), fun hl ho => ?_⟩
  rw [hl, ho]
  exact ⟨fun hseen => by rw [hseen]; rfl, fun hseen => by rw [hseen]; rfl⟩

/-! ### READ_STATION (R117) -/

variable {ch : ChannelNo} {a : Args} {s : State} {st : StationNo} {code : AnswerCode} {result : List Byte}

theorem exec_readStation (hp : Passes 1 everyRole ch a s) (h : answerReadStation a s = .now code result) :
    exec (.readStation ch a) s = .next (answered ch code result s) :=
  exec_answers (r := readStationRequest) rfl rfl rfl hp (congrArg _ h)

theorem holderByte_eq (h : Option ChannelNo) : holderByte h = byteOf (h.elim 0 fun c => c.val + 1) := by
  cases h <;> rfl

/-- A running timer is shown in whole seconds, rounded up, and as 1 at least. -/
theorem secondsShown_eq (t : Timer) : secondsShown t = t.elim 0 fun ms => max 1 ((ms + 999) / 1000) := by
  cases t <;> rfl

theorem answerReadStation_eq (hst : stationOf (argByte a 0).toNat = some st) :
    answerReadStation a s = .done
      [(derivedState (sel s.stations st)).byte, stationFlags (sel s.stations st),
        byteOf (sel s.stations st).persist.format.val, byteOf ((sel s.stations st).persist.sect.val + 1),
        byteOf (sel s.stations st).persist.window, byteOf (sel s.stations st).list.length,
        holderByte (sel s.stations st).holder, byteOf (secondsShown (sel s.stations st).timer)] := by
  simp only [answerReadStation, stationArg, hst]

/-! ### READ_DIVERGENCE (R99) -/

theorem exec_readDivergence (hp : Passes 2 everyRole ch a s) (h : answerReadDivergence a s = .now code result) :
    exec (.readDivergence ch a) s = .next (answered ch code result s) :=
  exec_answers (r := readDivergenceRequest) rfl rfl rfl hp (congrArg _ h)

theorem answerReadDivergence_end (hst : stationOf (argByte a 0).toNat = some st) (hn : (argByte a 1).toNat ≤ 7)
    (hl : (sel s.stations st).list.length ≤ (argByte a 1).toNat) : answerReadDivergence a s = .now .listEnd [] := by
  simp only [answerReadDivergence, stationArg, hst, if_neg (Nat.not_lt.2 hn), List.getElem?_eq_none hl]

theorem answerReadDivergence_record {d : DivRecord} (hst : stationOf (argByte a 0).toNat = some st)
    (hn : (argByte a 1).toNat ≤ 7) (hd : (sel s.stations st).list[(argByte a 1).toNat]? = some d) :
    answerReadDivergence a s = .done (recordBytes (sel s.stations st) d) := by
  simp only [answerReadDivergence, stationArg, hst, if_neg (Nat.not_lt.2 hn), hd]

/-- Settles O36: the record as it stands, and the list's end or the record at the position. -/
theorem stationReadings : Obligations.StationReadings := by
  refine fun ch a s st hst => ⟨fun hp => ?_, fun hp => ⟨fun hn => ?_, fun hn hl => ?_, fun p kind v hn hd => ?_,
    fun kind f d hn hd => ?_⟩⟩
  · have hanswer := answerReadStation_eq (s := s) hst
    rw [holderByte_eq, secondsShown_eq] at hanswer
    exact exec_readStation hp hanswer
  · exact exec_readDivergence hp (answerReadDivergence_out (.inr hn) s)
  · exact exec_readDivergence hp (answerReadDivergence_end hst hn hl)
  · exact exec_readDivergence hp (answerReadDivergence_record hst hn hd)
  · exact exec_readDivergence hp (answerReadDivergence_record hst hn hd)

end Sys2Proof.Machine
end

section
/-! PROOFS. O35: holds, their release, and the expiry of a report window (R100, R104, R112, R114). -/

namespace Sys2Proof.Machine

variable {ch c : ChannelNo} {a : Args} {s : State} {st : StationNo}

/-! ### HOLD (R112) -/

theorem runHold_notEnrolled (hst : stationOf (argByte a 0).toNat = some st)
    (he : (sel s.stations st).persist.enrolled = false) : runHold ch a s = (s, .refuse .notEnrolled) := by
  simp [runHold, stationArg, hst, he]

theorem runHold_free (hst : stationOf (argByte a 0).toNat = some st)
    (he : (sel s.stations st).persist.enrolled = true) (hh : (sel s.stations st).holder = none) :
    runHold ch a s = (s.setStation st { sel s.stations st with holder := some ch, timer := none }, .done [0]) := by
  simp [runHold, stationArg, hst, he, hh]

theorem runHold_own (hst : stationOf (argByte a 0).toNat = some st)
    (he : (sel s.stations st).persist.enrolled = true) (hh : (sel s.stations st).holder = some ch) :
    runHold ch a s = (s, .done [byteOf (ch.val + 1)]) := by
  simp [runHold, stationArg, hst, he, hh, holderByte]

theorem runHold_other (hst : stationOf (argByte a 0).toNat = some st)
    (he : (sel s.stations st).persist.enrolled = true) (hh : (sel s.stations st).holder = some c) (hc : c ≠ ch) :
    runHold ch a s = (s, .now .heldByOther [byteOf (c.val + 1)]) := by
  simp [runHold, stationArg, hst, he, hh, hc, holderByte]

/-! ### RELEASE_HOLD (R114, R100) -/

/-- A rebuilt record (R100): its list is that of the DAMAGED entries, and its timer runs unless the station is held. -/
theorem rebuildRec_eq (m : SlotMap Entry) (st : StationNo) (r : StationRec) :
    rebuildRec m st r =
      { r with
        timer := if r.holder = none then some (r.persist.window * 1000) else r.timer
        stale := false
        digestSeen := false
        list := ((damagedParams m st r.persist.format).take 8).map fun p => .param p .damaged none
        overflow := decide (8 < (damagedParams m st r.persist.format).length) } := by
  unfold rebuildRec
  cases r.holder <;> rfl

theorem runReleaseHold_notEnrolled (hst : stationOf (argByte a 0).toNat = some st)
    (he : (sel s.stations st).persist.enrolled = false) : runReleaseHold ch a s = (s, .refuse .notEnrolled) := by
  simp [runReleaseHold, stationArg, hst, he]

theorem runReleaseHold_free (hst : stationOf (argByte a 0).toNat = some st)
    (he : (sel s.stations st).persist.enrolled = true) (hh : (sel s.stations st).holder = none) :
    runReleaseHold ch a s = (s, .done [0]) := by
  simp [runReleaseHold, stationArg, hst, he, hh]

theorem runReleaseHold_denied (hst : stationOf (argByte a 0).toNat = some st)
    (he : (sel s.stations st).persist.enrolled = true) (hh : (sel s.stations st).holder = some c) (hc : c ≠ ch)
    (hrole : s.role ch = .operator) : runReleaseHold ch a s = (s, .now .denied [1]) := by
  simp [runReleaseHold, stationArg, hst, he, hh, hc, hrole, deniedFor, Role.byte]

theorem runReleaseHold_released (hst : stationOf (argByte a 0).toNat = some st)
    (he : (sel s.stations st).persist.enrolled = true) (hh : (sel s.stations st).holder = some c)
    (hc : c = ch ∨ s.role ch ≠ .operator) :
    runReleaseHold ch a s =
      (s.setStation st (rebuildRec s.slots st { sel s.stations st with holder := none }),
        .done [byteOf (c.val + 1)]) := by
  have hown : ¬ (c ≠ ch ∧ s.role ch = .operator) := fun hd => hc.elim hd.1 fun hrole => hrole hd.2
  simp only [runReleaseHold, stationArg, hst, he, hh, if_neg hown]
  rfl

/-! ### WINDOW_EXPIRY (R104) -/

theorem exec_windowExpiry (st : StationNo) (s : State) : exec (.windowExpiry st) s = .next
    (if timerDue (sel s.stations st).timer then
      settle s (s.setStation st { sel s.stations st with timer := none, stale := true })
    else s) := rfl

/-- Settles O35: the outcomes of the two requests, with the record a release rebuilds, and the expiry by its timer. -/
theorem holdsAndWindow : Obligations.HoldsAndWindow := by
  refine ⟨fun ch a s st hp hst he => ⟨?_, ?_⟩, fun s st he => ⟨fun ch a hp hst => ⟨fun hh => ⟨?_, ?_⟩, fun hh => ?_,
    fun c hh hc => ⟨?_, fun hrole => ?_⟩, fun c hh hc => ?_⟩, fun ms hms => ⟨fun hdue => ?_, fun hearly => ?_⟩⟩,
    fun s st hnone => ?_⟩
  · exact exec_answers (r := holdRequest) rfl rfl rfl hp (runHold_notEnrolled hst he)
  · exact exec_answers (r := releaseHoldRequest) rfl rfl rfl hp (runReleaseHold_notEnrolled hst he)
  · exact exec_event (r := holdRequest) rfl rfl rfl hp (runHold_free hst he hh)
  · exact exec_answers (r := releaseHoldRequest) rfl rfl rfl hp (runReleaseHold_free hst he hh)
  · exact exec_answers (r := holdRequest) rfl rfl rfl hp (runHold_own hst he hh)
  · exact exec_answers (r := holdRequest) rfl rfl rfl hp (runHold_other hst he hh hc)
  · exact exec_answers (r := releaseHoldRequest) rfl rfl rfl hp
      (runReleaseHold_denied hst he hh hc ((role_arrive _ _ _).trans hrole))
  · have hc : c = ch ∨ (arrive ch ⟨0x45, a⟩ s).role ch ≠ .operator := by rwa [role_arrive]
    have hrun := runReleaseHold_released (s := arrive ch ⟨0x45, a⟩ s) hst he hh hc
    rw [rebuildRec_eq] at hrun
    exact exec_event (r := releaseHoldRequest) rfl rfl rfl hp hrun
  · rw [exec_windowExpiry, hms, timerDue_some, decide_eq_true hdue, if_pos rfl]
  · rw [exec_windowExpiry, hms, timerDue_some, decide_eq_false (Nat.not_le.2 hearly), if_neg Bool.false_ne_true]
  · rw [exec_windowExpiry, hnone, timerDue_none, if_neg Bool.false_ne_true]

end Sys2Proof.Machine
end

section
/-! PROOFS. O32: how findings join, update or overflow a list (R98), the re-judgement of a parameter row by row (R111),
and the DAMAGED parameters that a rebuild lists (R100) and a MATCH looks for (R105). -/

namespace Sys2Proof.Machine

variable {r : StationRec} {l l' : List DivRecord} {p : ParamNo}

/-! ### Records that a change does not concern -/

/-- An update of the records about `x` leaves a list that holds none. -/
theorem map_of_unlisted {x : Option ParamNo} {g : DivRecord → DivRecord} (h : x ∉ l.map DivRecord.subject)
    (hg : ∀ d, d.subject ≠ x → g d = d) : l.map g = l :=
  (List.map_congr_left fun d hd => hg d fun hx => h (List.mem_map.2 ⟨d, hd, hx⟩)).trans (List.map_id l)

/-- A list that holds no record about `p` holds none to remove. -/
theorem filter_of_unlisted (h : p ∉ paramsListed l) : (l.filter fun d => !d.about p) = l := by
  refine List.filter_eq_self.2 fun d hd => ?_
  have hd : ¬ d.about p = true := fun hp => h (any_about.1 (List.any_eq_true.2 ⟨d, hd, hp⟩))
  simpa using hd

theorem any_about_eq_false (h : p ∉ paramsListed l) : (l.any fun d => d.about p) = false :=
  Bool.eq_false_iff.2 (mt any_about.1 h)

/-! ### Findings (R98) -/

theorem append_joins (d : DivRecord) (h : r.list.length < 8) : r.append d = { r with list := r.list ++ [d] } :=
  if_pos h

theorem append_overflows (d : DivRecord) (h : 8 ≤ r.list.length) : r.append d = { r with overflow := true } :=
  if_neg (Nat.not_lt.2 h)

theorem find_unlisted (k : ParamKind) (v : Option Word) (h : p ∉ paramsListed r.list) :
    r.find p k v = r.append (.param p k v) := by
  rw [StationRec.find, any_about_eq_false h, if_neg Bool.false_ne_true]

/-- A parameter's record is updated in place, and keeps its value where the finding carries none. -/
theorem find_listed {old : ParamKind} {v : Option Word} (k : ParamKind) (value : Option Word)
    (hr : r.list = l ++ .param p old v :: l') (hl : p ∉ paramsListed l) (hl' : p ∉ paramsListed l') :
    r.find p k value = { r with list := l ++ .param p k (value.or v) :: l' } := by
  have hany : (r.list.any fun d => d.about p) = true := by
    rw [hr]
    simp [DivRecord.about]
  rw [StationRec.find, hany, if_pos rfl, hr, List.map_append, List.map_cons]
  rw [map_of_unlisted (mt mem_paramsListed.2 hl), map_of_unlisted (mt mem_paramsListed.2 hl')]
  · simp only [if_pos]
  all_goals
    rintro (⟨q, k', v'⟩ | ⟨k', f, x⟩) hd
    · exact if_neg fun hq => hd (congrArg some hq)
    · rfl

theorem findLevel_unlisted (k : LevelKind) (f : FormatNo) (x : Word) (h : r.list.any DivRecord.isLevel = false) :
    r.findLevel k f x = r.append (.level k f x) := by
  rw [StationRec.findLevel, h, if_neg Bool.false_ne_true]

/-- The station-level record is updated in place. -/
theorem findLevel_listed {k' : LevelKind} {f' : FormatNo} {x' : Word} (k : LevelKind) (f : FormatNo) (x : Word)
    (hr : r.list = l ++ .level k' f' x' :: l') (hl : l.any DivRecord.isLevel = false)
    (hl' : l'.any DivRecord.isLevel = false) :
    r.findLevel k f x = { r with list := l ++ .level k f x :: l' } := by
  have hany : r.list.any DivRecord.isLevel = true := by
    rw [hr]
    simp [DivRecord.isLevel]
  have hnone : ∀ {m : List DivRecord}, m.any DivRecord.isLevel = false → none ∉ m.map DivRecord.subject :=
    fun hm => mt any_isLevel.2 (Bool.eq_false_iff.1 hm)
  rw [StationRec.findLevel, hany, if_pos rfl, hr, List.map_append, List.map_cons]
  rw [map_of_unlisted (hnone hl), map_of_unlisted (hnone hl')]
  · rfl
  all_goals exact fun d hd => if_neg (mt isLevel_iff.1 hd)

/-- The removal of a parameter's record leaves the others in their order. -/
theorem settleParam_listed {k : ParamKind} {v : Option Word} (hr : r.list = l ++ .param p k v :: l')
    (hl : p ∉ paramsListed l) (hl' : p ∉ paramsListed l') : r.settleParam p = { r with list := l ++ l' } := by
  rw [StationRec.settleParam, hr, List.filter_append, filter_of_unlisted hl,
    List.filter_cons_of_neg (by simp [DivRecord.about]), filter_of_unlisted hl']

/-! ### Re-judgement (R111) -/

theorem heldFor_listed {k : ParamKind} {v : Option Word} (hr : r.list = l ++ .param p k v :: l')
    (hl : p ∉ paramsListed l) : r.heldFor p = some v := by
  have hnone : (l.find? fun d => d.about p) = none := by simpa using any_about_eq_false hl
  have hthis : (r.list.find? fun d => d.about p) = some (.param p k v) := by
    rw [hr, List.find?_append, hnone, Option.none_or, List.find?_cons_of_pos (by simp [DivRecord.about])]
  rw [StationRec.heldFor, hthis]
  rfl

theorem heldFor_unlisted (h : p ∉ paramsListed r.list) : r.heldFor p = none := by
  have hnone : (r.list.find? fun d => d.about p) = none := by simpa using any_about_eq_false h
  rw [StationRec.heldFor, hnone]
  rfl

variable {before : Resolution} {now : Option Entry} {e : Entry} {b : Body}

theorem rejudgeRec_conforms {v : Word} (hheld : r.heldFor p = some (some v)) (hb : e.body = some b)
    (hj : judgeBody b v = none) : rejudgeRec p before (some e) r = r.settleParam p := by
  simp only [rejudgeRec, hheld, hb, hj]

theorem rejudgeRec_finding {v : Word} {k : ParamKind} (hheld : r.heldFor p = some (some v)) (hb : e.body = some b)
    (hj : judgeBody b v = some k) : rejudgeRec p before (some e) r = r.find p k none := by
  simp only [rejudgeRec, hheld, hb, hj]

theorem rejudgeRec_damaged {v : Word} (hheld : r.heldFor p = some (some v)) (hb : e.body = none) :
    rejudgeRec p before (some e) r = r.find p .damaged none := by
  simp only [rejudgeRec, hheld, hb]

theorem rejudgeRec_absent {v : Word} (hheld : r.heldFor p = some (some v)) :
    rejudgeRec p before none r = r.find p .unknownParameter none := by
  simp only [rejudgeRec, hheld]

theorem rejudgeRec_valueless (hheld : r.heldFor p = some none) :
    rejudgeRec p before now r = if resolutionOf now = .damaged then r else r.settleParam p := by
  simp only [rejudgeRec, hheld]

theorem rejudgeRec_unlisted (hheld : r.heldFor p = none) : rejudgeRec p before now r =
    if resolutionOf now = .damaged ∧ before ≠ .damaged then r.append (.param p .damaged none) else r := by
  simp only [rejudgeRec, hheld]

/-! ### DAMAGED entries (R100, R105) -/

theorem resolutionOf_eq_damaged : resolutionOf now = .damaged ↔ ∃ e, now = some e ∧ e.body = none := by
  cases now with
  | none => simp [resolutionOf]
  | some e => cases hb : e.body <;> simp [resolutionOf, hb]

theorem mem_damagedParams {m : SlotMap Entry} {st : StationNo} {f : FormatNo} :
    p ∈ damagedParams m st f ↔ ∃ e, resolve m ⟨st, f, p⟩ = some e ∧ e.body = none := by
  rw [damagedParams, mem_pick, decide_eq_true_iff, resolutionOf_eq_damaged]

theorem unlistedDamage_iff {m : SlotMap Entry} {st : StationNo} : unlistedDamage m st r = true ↔
    ∃ p e, resolve m ⟨st, r.persist.format, p⟩ = some e ∧ e.body = none ∧ p ∉ paramsListed r.list := by
  rw [unlistedDamage, List.any_eq_true]
  refine exists_congr fun p => ?_
  rw [mem_damagedParams, Bool.not_eq_true', Bool.eq_false_iff, ne_eq, any_about]
  exact ⟨fun ⟨⟨e, he, hb⟩, hp⟩ => ⟨e, he, hb, hp⟩, fun ⟨e, he, hb, hp⟩ => ⟨⟨e, he, hb⟩, hp⟩⟩

/-- Settles O32: the findings by whether a record is listed, the re-judgement by the record held and what the parameter
resolves to now. -/
theorem listUpdates : Obligations.ListUpdates := by
  refine ⟨fun r p kind value => ⟨fun hp hl => ?_, fun hp hl => ?_, fun l l' old v hr hl hl' => ?_,
      fun k f x => ⟨fun hx hl => ?_, fun hx hl => ?_, fun l l' k' f' x' hr hl hl' => ?_⟩⟩,
    fun r p before now => ⟨fun l l' old v hr hl hl' => ⟨fun e b hnow hb => ⟨fun hj => ?_, fun k hj => ?_⟩,
      fun e hnow hb => ?_, fun hnow => ?_⟩, fun l l' hr hl hl' => ⟨fun hd => ?_, fun hd => ?_⟩,
      fun hp => ⟨fun hd hb => ?_, fun hd => ?_⟩⟩,
    fun m st f => ⟨fun p => mem_damagedParams, damagedParams_pairwise m st f⟩, fun m st r => unlistedDamage_iff⟩
  · rw [find_unlisted kind value hp, append_joins _ hl]
  · rw [find_unlisted kind value hp, append_overflows _ hl]
  · exact find_listed kind value hr hl hl'
  · rw [findLevel_unlisted k f x hx, append_joins _ hl]
  · rw [findLevel_unlisted k f x hx, append_overflows _ hl]
  · exact findLevel_listed k f x hr hl hl'
  · rw [hnow, rejudgeRec_conforms (heldFor_listed hr hl) hb hj]
    exact settleParam_listed hr hl hl'
  · rw [hnow, rejudgeRec_finding (heldFor_listed hr hl) hb hj]
    exact find_listed k none hr hl hl'
  · rw [hnow, rejudgeRec_damaged (heldFor_listed hr hl) hb]
    exact find_listed .damaged none hr hl hl'
  · rw [hnow, rejudgeRec_absent (heldFor_listed hr hl)]
    exact find_listed .unknownParameter none hr hl hl'
  · rw [rejudgeRec_valueless (heldFor_listed hr hl), if_pos hd]
  · rw [rejudgeRec_valueless (heldFor_listed hr hl), if_neg hd]
    exact settleParam_listed hr hl hl'
  · rw [rejudgeRec_unlisted (heldFor_unlisted hp), if_pos ⟨hd, hb⟩, find_unlisted _ _ hp]
  · rw [rejudgeRec_unlisted (heldFor_unlisted hp), if_neg fun h => hd.elim (· h.1) h.2]

end Sys2Proof.Machine
end

section
/-! PROOFS. O31: the judgement of a value report by the first step of R102 that applies, and its recording (R98,
R101). -/

namespace Sys2Proof.Machine

/-! ### The judgement (R102) -/

variable {e : Option Entry} {x : Entry} {b : Body} {v : Word}

theorem judgeBody_outOfBounds
    (h : (∃ l, b.low = some l ∧ v.toInt < l.toInt) ∨ ∃ u, b.high = some u ∧ u.toInt < v.toInt) :
    judgeBody b v = some .outOfBounds := by
  refine if_pos ?_
  rw [Bool.or_eq_true, Bool.not_eq_true', Bool.not_eq_true', Bool.eq_false_iff, Bool.eq_false_iff, ne_eq, ne_eq,
    aboveLow_iff, belowHigh_iff]
  rcases h with ⟨l, hl, hlt⟩ | ⟨u, hu, hlt⟩
  · exact .inl fun hall => absurd (hall l hl) (by omega)
  · exact .inr fun hall => absurd (hall u hu) (by omega)

/-- Within the bounds the difference to the entry's value decides. -/
theorem judgeBody_within (hlow : ∀ l, b.low = some l → l.toInt ≤ v.toInt)
    (hhigh : ∀ u, b.high = some u → v.toInt ≤ u.toInt) :
    judgeBody b v = if b.tolerance.toNat < (v.toInt - b.value.toInt).natAbs then some .deviates else none := by
  rw [judgeBody, aboveLow_iff.2 hlow, belowHigh_iff.2 hhigh, if_neg (by decide), deviates]
  simp only [decide_eq_true_eq]

theorem judgeValue_none : judgeValue none v = some .unknownParameter := rfl

theorem judgeValue_damaged (he : e = some x) (hb : x.body = none) : judgeValue e v = some .damaged := by
  rw [he]
  simp only [judgeValue, hb]

theorem judgeValue_active (he : e = some x) (hb : x.body = some b) : judgeValue e v = judgeBody b v := by
  rw [he]
  simp only [judgeValue, hb]

theorem findingVerdict_byte (k : ParamKind) : (findingVerdict (some k)).byte = k.byte := by cases k <;> rfl

/-! ### The report -/

variable {a : Args} {s : State} {st : StationNo} {p : ParamNo}

theorem runReportValue_notEnrolled (hst : stationOf (argByte a 0).toNat = some st)
    (hp : paramOf (argHalf a 1).toNat = some p) (he : (sel s.stations st).persist.enrolled = false) :
    runReportValue a s = (s, .refuse .notEnrolled) := by
  simp [runReportValue, stationArg, hst, hp, he]

/-- A held station's answer shows it HELD, with the list's length (log entry 28). -/
theorem reportFields_held {r : StationRec} (he : r.persist.enrolled = true) (hh : r.holder ≠ none) :
    reportFields .held r = [0x0A, 1, byteOf r.list.length] := by
  obtain ⟨c, hc⟩ := Option.ne_none_iff_exists'.1 hh
  rw [reportFields, derivedState_held he hc]
  rfl

theorem runReportValue_held (hst : stationOf (argByte a 0).toNat = some st)
    (hp : paramOf (argHalf a 1).toNat = some p) (he : (sel s.stations st).persist.enrolled = true)
    (hh : (sel s.stations st).holder ≠ none) :
    runReportValue a s = (s, .done [0x0A, 1, byteOf (sel s.stations st).list.length]) := by
  rw [← reportFields_held he hh]
  simp [runReportValue, stationArg, hst, hp, he, Option.isSome_iff_ne_none.2 hh]

/-- The report of a station that is not held, by the finding it is judged with. -/
theorem runReportValue_judged {finding : Option ParamKind} (hst : stationOf (argByte a 0).toNat = some st)
    (hp : paramOf (argHalf a 1).toNat = some p) (he : (sel s.stations st).persist.enrolled = true)
    (hh : (sel s.stations st).holder = none)
    (hj : judgeValue (resolve s.slots ⟨st, (sel s.stations st).persist.format, p⟩) (argWord a 3) = finding) :
    runReportValue a s =
      (s.setStation st (recordValue p (argWord a 3) finding (sel s.stations st)),
        .done (reportFields (findingVerdict finding) (recordValue p (argWord a 3) finding (sel s.stations st)) ++
          halfBytes
            (((resolve s.slots ⟨st, (sel s.stations st).persist.format, p⟩).map Entry.statedRevision).getD 0))) := by
  subst hj
  simp [runReportValue, stationArg, hst, hp, he, hh]

/-- Settles O31: the outcomes of the report, the findings each by its step of R102. -/
theorem reportValueJudged : Obligations.ReportValueJudged := by
  intro ch a s st p hpass hst hp
  refine ⟨fun he => ?_, fun he hh => ?_, fun he hh e hres => ⟨fun kind r' hkind hr' => ?_,
    fun x b r' hx hb hlow hhigh htol hr' => ?_⟩⟩
  · exact exec_answers (r := reportValueRequest) rfl rfl rfl hpass (runReportValue_notEnrolled hst hp he)
  · exact exec_answers (r := reportValueRequest) rfl rfl rfl hpass (runReportValue_held hst hp he hh)
  · have hj : judgeValue e (argWord a 3) = some kind := by
      rcases hkind with ⟨rfl, rfl⟩ | ⟨x, hx, hb, rfl⟩ | ⟨x, b, hx, hb, rfl, hout⟩ |
        ⟨x, b, hx, hb, rfl, hlow, hhigh, hdev⟩
      · exact judgeValue_none
      · exact judgeValue_damaged hx hb
      · rw [judgeValue_active hx hb, judgeBody_outOfBounds hout]
      · rw [judgeValue_active hx hb, judgeBody_within hlow hhigh, if_pos hdev]
    subst hres hr'
    rw [← findingVerdict_byte]
    exact exec_event (r := reportValueRequest) rfl rfl rfl hpass
      (runReportValue_judged (s := arrive ch ⟨0x42, a⟩ s) hst hp he hh hj)
  · have hj : judgeValue e (argWord a 3) = none := by
      rw [judgeValue_active hx hb, judgeBody_within hlow hhigh, if_neg (Nat.not_lt.2 htol)]
    have hrev : b.revision = (e.map Entry.statedRevision).getD 0 := by
      simp [hx, Entry.statedRevision, hb]
    subst hr'
    rw [hrev]
    subst hres
    exact exec_event (r := reportValueRequest) rfl rfl rfl hpass
      (runReportValue_judged (s := arrive ch ⟨0x42, a⟩ s) hst hp he hh hj)

end Sys2Proof.Machine
end

section
/-! PROOFS. O33 and O34: the judgement of a digest report: MATCH and MISMATCH in the active format, the adoption report,
and the wrong format (R103 to R107). -/

namespace Sys2Proof.Machine

/-! ### The judgement (R103, R105 to R107) -/

variable {s : State} {st : StationNo} {f : FormatNo} {d : DigestPair} {r : StationRec}

theorem judgeDigest_match (hf : f = r.persist.format) (hd : s.pairOf st f = d) :
    judgeDigest st f d r s =
      (s.setStation st (recordMatch s.slots st r), digestAnswer .hit (recordMatch s.slots st r) (s.pairOf st f)) := by
  rw [judgeDigest, if_pos hf]
  simp only [reportActive, if_pos hd]

theorem judgeDigest_mismatch (hf : f = r.persist.format) (hd : s.pairOf st f ≠ d) :
    judgeDigest st f d r s =
      (s.setStation st (r.findLevel .digestMismatch f d.digest),
        digestAnswer .mismatch (r.findLevel .digestMismatch f d.digest) (s.pairOf st f)) := by
  rw [judgeDigest, if_pos hf]
  simp only [reportActive, if_neg hd]

theorem judgeDigest_adoption (hf : f ≠ r.persist.format) (hp : r.pending = true)
    (hto : s.changingTo r.persist.sect f = true) : judgeDigest st f d r s = reportAdoption st f d r s := by
  rw [judgeDigest, if_neg hf, hp, hto]
  rfl

theorem reportAdoption_match (hd : s.pairOf st f = d) :
    reportAdoption st f d r s =
      (adoptionNotice r.persist.sect (enqueue (.station st) (s.setStation st (adoptRec s.slots st f r))),
        digestAnswer .adopted (adoptRec s.slots st f r) (s.pairOf st f)) := by
  simp only [reportAdoption, if_pos hd]

theorem reportAdoption_mismatch (hd : s.pairOf st f ≠ d) :
    reportAdoption st f d r s =
      (s.setStation st (r.findLevel .digestMismatch f d.digest),
        digestAnswer .mismatch (r.findLevel .digestMismatch f d.digest) (s.pairOf st f)) := by
  simp only [reportAdoption, if_neg hd]

theorem judgeDigest_wrongFormat (hf : f ≠ r.persist.format)
    (h : r.pending = false ∨ s.changingTo r.persist.sect f = false) :
    judgeDigest st f d r s = reportWrongFormat st f d r s := by
  have hno : (r.pending && s.changingTo r.persist.sect f) = false := Bool.and_eq_false_iff.2 h
  rw [judgeDigest, if_neg hf, hno, if_neg Bool.false_ne_true]

/-- What adoption leaves of a record whose timer was started and whose stale flag was cleared (R106). -/
theorem adoptRec_eq (m : SlotMap Entry) (st : StationNo) (f : FormatNo) (hh : r.holder = none)
    (ht : r.timer = some (r.persist.window * 1000)) (hs : r.stale = false) :
    adoptRec m st f r =
      { r with
        persist := { r.persist with format := f }
        pending := false
        digestSeen := true
        list := ((damagedParams m st f).take 8).map fun p => .param p .damaged none
        overflow := decide (8 < (damagedParams m st f).length) } := by
  rw [adoptRec, rebuildRec_eq]
  simp only [hh, ht, hs, if_pos]

/-! ### The report (R103) -/

variable {a : Args}

theorem runReportDigest_notEnrolled (hst : stationOf (argByte a 0).toNat = some st)
    (hf : productFormatOf (argByte a 1).toNat = some f) (hn : (argHalf a 2).toNat ≤ 1024)
    (he : (sel s.stations st).persist.enrolled = false) : runReportDigest a s = (s, .refuse .notEnrolled) := by
  simp [runReportDigest, stationArg, hst, hf, Nat.not_lt.2 hn, he]

theorem runReportDigest_held (hst : stationOf (argByte a 0).toNat = some st)
    (hf : productFormatOf (argByte a 1).toNat = some f) (hn : (argHalf a 2).toNat ≤ 1024)
    (he : (sel s.stations st).persist.enrolled = true) (hh : (sel s.stations st).holder ≠ none) :
    runReportDigest a s = (s, digestAnswer .held (sel s.stations st) ⟨0, 0⟩) := by
  simp [runReportDigest, stationArg, hst, hf, Nat.not_lt.2 hn, he, Option.isSome_iff_ne_none.2 hh]

theorem runReportDigest_judged (hst : stationOf (argByte a 0).toNat = some st)
    (hf : productFormatOf (argByte a 1).toNat = some f) (hn : (argHalf a 2).toNat ≤ 1024)
    (he : (sel s.stations st).persist.enrolled = true) (hh : (sel s.stations st).holder = none) :
    runReportDigest a s = judgeDigest st f ⟨argWord a 4, (argHalf a 2).toNat⟩
      { sel s.stations st with timer := some ((sel s.stations st).persist.window * 1000), stale := false } s := by
  simp only [runReportDigest, stationArg, hst, hf, if_neg (Nat.not_lt.2 hn)]
  rw [if_neg (by rw [he]; decide), if_neg (by rw [hh]; decide)]
  rfl

/-- A pair of zeros adds nothing to an answer (R175). -/
theorem digestAnswer_zero (v : Verdict) (r : StationRec) :
    digestAnswer v r ⟨0, 0⟩ = .done (reportFields v r ++ List.replicate 6 0) := by
  rw [digestAnswer, List.append_assoc]
  rfl

/-- The report of a station that is not held, by what its judgement does with the request arrived; `r` is the record
with its timer started and stale cleared. -/
theorem exec_reportDigest {ch : ChannelNo} {t : State} {code : AnswerCode} {result : List Byte}
    (hpass : Passes 8 everyRole ch a s) (hst : stationOf (argByte a 0).toNat = some st)
    (hf : productFormatOf (argByte a 1).toNat = some f) (hn : (argHalf a 2).toNat ≤ 1024)
    (he : (sel s.stations st).persist.enrolled = true) (hh : (sel s.stations st).holder = none)
    (hr : r = { sel s.stations st with
      timer := some ((sel s.stations st).persist.window * 1000), stale := false })
    (h : judgeDigest st f ⟨argWord a 4, (argHalf a 2).toNat⟩ r (arrive ch ⟨0x43, a⟩ s) =
      (arrive ch ⟨0x43, a⟩ t, .now code result)) :
    exec (.reportDigest ch a) s = .next (answered ch code result (settle s t)) := by
  subst hr
  exact exec_event (r := reportDigestRequest) rfl rfl rfl hpass
    ((runReportDigest_judged (s := arrive ch ⟨0x43, a⟩ s) hst hf hn he hh).trans h)

/-- Settles O33: the report in the active format, by whether the reported pair is the expected one. -/
theorem digestReportActive : Obligations.DigestReportActive := by
  intro ch a s st f r d hpass hst hf hn he hh hactive hd hr
  have hactive : f = r.persist.format := by rw [hr]; exact hactive
  subst hd
  refine ⟨fun hmatch r' hr' => ?_, fun hmis r' hr' => ?_⟩ <;> subst hr'
  · exact exec_reportDigest hpass hst hf hn he hh hr
      (judgeDigest_match (s := arrive ch ⟨0x43, a⟩ s) hactive hmatch)
  · exact exec_reportDigest hpass hst hf hn he hh hr
      (judgeDigest_mismatch (s := arrive ch ⟨0x43, a⟩ s) hactive hmis)

/-- A held station's answer has zeros where a pair would stand (log entry 28). -/
theorem exec_reportDigest_held {ch : ChannelNo} (hpass : Passes 8 everyRole ch a s)
    (hst : stationOf (argByte a 0).toNat = some st) (hf : productFormatOf (argByte a 1).toNat = some f)
    (hn : (argHalf a 2).toNat ≤ 1024) (he : (sel s.stations st).persist.enrolled = true)
    (hh : (sel s.stations st).holder ≠ none) :
    exec (.reportDigest ch a) s =
      .next (answered ch .done [0x0A, 1, byteOf (sel s.stations st).list.length] s) := by
  have hrun := runReportDigest_held (s := arrive ch ⟨0x43, a⟩ s) hst hf hn he hh
  rw [digestAnswer_zero, arrive_stations, reportFields_held he hh] at hrun
  exact (exec_answers (r := reportDigestRequest) rfl rfl rfl hpass hrun).trans
    (congrArg _ (answered_append_zeros ch .done _ 6 s))

/-- Settles O34: the two refusals, the adoption report by whether its pair is the expected one, and the wrong format. -/
theorem digestReportOther : Obligations.DigestReportOther := by
  intro ch a s st f r d hpass hst hf hn hd hr
  subst hd
  refine ⟨fun he => ?_, exec_reportDigest_held hpass hst hf hn, fun he hh hother => ?_⟩
  · exact exec_answers (r := reportDigestRequest) rfl rfl rfl hpass (runReportDigest_notEnrolled hst hf hn he)
  have hother : f ≠ r.persist.format := by rw [hr]; exact hother
  refine ⟨fun hp hto => ?_, fun hno r' hr' => ?_⟩
  · have hadopt : judgeDigest st f ⟨argWord a 4, (argHalf a 2).toNat⟩ r (arrive ch ⟨0x43, a⟩ s) =
        reportAdoption st f ⟨argWord a 4, (argHalf a 2).toNat⟩ r (arrive ch ⟨0x43, a⟩ s) :=
      judgeDigest_adoption hother (by rw [hr]; exact hp) (by rw [hr]; exact hto)
    refine ⟨fun hmatch r' hr' => ?_, fun hmis r' hr' => ?_⟩
    · have hrun := reportAdoption_match (s := arrive ch ⟨0x43, a⟩ s) (r := r) hmatch
      rw [adoptRec_eq _ _ _ (by rw [hr]; exact hh) (by rw [hr]) (by rw [hr]), setStation_arrive, enqueue_arrive,
        adoptionNotice_arrive] at hrun
      subst hr'
      exact exec_reportDigest hpass hst hf hn he hh hr (hadopt.trans hrun)
    · subst hr'
      exact exec_reportDigest hpass hst hf hn he hh hr
        (hadopt.trans (reportAdoption_mismatch (s := arrive ch ⟨0x43, a⟩ s) hmis))
  · have hrun := judgeDigest_wrongFormat (s := arrive ch ⟨0x43, a⟩ s) (st := st)
      (d := ⟨argWord a 4, (argHalf a 2).toNat⟩) hother (by rw [hr]; exact hno)
    rw [reportWrongFormat, digestAnswer_zero, setStation_arrive] at hrun
    subst hr'
    exact (exec_reportDigest hpass hst hf hn he hh hr hrun).trans
      (congrArg _ (answered_append_zeros ch .done _ 6 _))

end Sys2Proof.Machine
end

section
/-! PROOFS. O30: ENROLL with its rebuild, its record write and the recomputes, and UNENROLL (R95, R96, R100, R125). -/

namespace Sys2Proof.Machine

variable {a : Args} {s : State} {st : StationNo} {sec : SectionNo}

/-! ### ENROLL (R95) -/

/-- The record of a station that is enrolled, rebuilt from the table (R95, R100). -/
theorem enrollRec_eq (m : SlotMap Entry) (st : StationNo) (sec : SectionNo) (window : Nat) (f : FormatNo)
    (r : StationRec) :
    enrollRec m st sec window f r =
      { persist := ⟨true, sec, window, f⟩
        holder := r.holder
        timer := if r.holder = none then some (window * 1000) else r.timer
        stale := false
        digestSeen := false
        pending := r.pending
        list := ((damagedParams m st f).take 8).map fun p => .param p .damaged none
        overflow := decide (8 < (damagedParams m st f).length) } := by
  rw [enrollRec, rebuildRec_eq]

/-- What R95 does with the station's new record: its write is queued, and the section is recomputed, then the one that
the station has left. -/
def enrolledState (st : StationNo) (sec : SectionNo) (r : StationRec) (s : State) : State :=
  if (sel s.stations st).persist.enrolled = true ∧ (sel s.stations st).persist.sect ≠ sec then
    recompute (sel s.stations st).persist.sect (recompute sec (enqueue (.station st) (s.setStation st r)))
  else recompute sec (enqueue (.station st) (s.setStation st r))

theorem enrolledState_arrive (ch : ChannelNo) (req : Request) (st : StationNo) (sec : SectionNo) (r : StationRec)
    (s : State) : enrolledState st sec r (arrive ch req s) = arrive ch req (enrolledState st sec r s) := by
  simp only [enrolledState, arrive_stations, setStation_arrive, enqueue_arrive, recompute_arrive]
  split <;> rfl

theorem runEnroll_busy (hst : stationOf (argByte a 0).toNat = some st)
    (hsec : sectionOf (argByte a 1).toNat = some sec) (hlow : 1 ≤ (argByte a 2).toNat)
    (hhigh : (argByte a 2).toNat ≤ 250)
    (hbusy : s.changing sec = true ∨ ((sel s.stations st).persist.enrolled = true ∧
      s.changing (sel s.stations st).persist.sect = true)) : runEnroll a s = (s, .refuse .sectionBusy) := by
  have hwindow : ¬ ((argByte a 2).toNat < 1 ∨ 250 < (argByte a 2).toNat) := by omega
  simp only [runEnroll, stationArg, hst, hsec, if_neg hwindow]
  exact if_pos (by simpa [or_comm] using hbusy)

theorem runEnroll_done (hst : stationOf (argByte a 0).toNat = some st)
    (hsec : sectionOf (argByte a 1).toNat = some sec) (hlow : 1 ≤ (argByte a 2).toNat)
    (hhigh : (argByte a 2).toNat ≤ 250) (hfree : s.changing sec = false)
    (hleft : (sel s.stations st).persist.enrolled = true → s.changing (sel s.stations st).persist.sect = false) :
    runEnroll a s =
      (enrolledState st sec (enrollRec s.slots st sec (argByte a 2).toNat (sel s.sections sec).persist.format
        (sel s.stations st)) s, .done [byteOf (sel s.sections sec).persist.format.val]) := by
  have hwindow : ¬ ((argByte a 2).toNat < 1 ∨ 250 < (argByte a 2).toNat) := by omega
  have hbusy : ¬ (((sel s.stations st).persist.enrolled && s.changing (sel s.stations st).persist.sect) ||
      s.changing sec) = true := by
    rw [hfree, Bool.or_false, Bool.and_eq_true]
    exact fun ⟨he, hc⟩ => Bool.false_ne_true ((hleft he).symm.trans hc)
  simp only [runEnroll, stationArg, hst, hsec, if_neg hwindow, if_neg hbusy, enrolledState, Bool.and_eq_true,
    bne_iff_ne]

/-! ### UNENROLL (R96) -/

theorem runUnenroll_notEnrolled (hst : stationOf (argByte a 0).toNat = some st)
    (he : (sel s.stations st).persist.enrolled = false) : runUnenroll a s = (s, .refuse .notEnrolled) := by
  simp [runUnenroll, stationArg, hst, he]

theorem runUnenroll_busy (hst : stationOf (argByte a 0).toNat = some st)
    (he : (sel s.stations st).persist.enrolled = true) (hc : s.changing (sel s.stations st).persist.sect = true) :
    runUnenroll a s = (s, .refuse .sectionBusy) := by
  simp [runUnenroll, stationArg, hst, he, hc]

theorem runUnenroll_done (hst : stationOf (argByte a 0).toNat = some st)
    (he : (sel s.stations st).persist.enrolled = true) (hc : s.changing (sel s.stations st).persist.sect = false) :
    runUnenroll a s =
      (recompute (sel s.stations st).persist.sect (enqueue (.station st)
        (s.setStation st (.idle { (sel s.stations st).persist with enrolled := false }))), .done []) := by
  simp [runUnenroll, stationArg, hst, he, hc]

/-- Settles O30: the outcomes of the two requests, with the record that the enrolment rebuilds. -/
theorem enrolment : Obligations.Enrolment := by
  refine fun ch a s st hst => ⟨fun sec hp hsec hlow hhigh => ⟨fun hbusy => ?_, fun hfree hleft => ?_⟩,
    fun hp => ⟨fun he => ?_, fun he hc => ?_, fun he hc => ?_⟩⟩
  · exact exec_answers (r := enrollRequest) rfl rfl rfl hp
      (runEnroll_busy (s := arrive ch ⟨0x40, a⟩ s) hst hsec hlow hhigh hbusy)
  · have hrun := runEnroll_done (s := arrive ch ⟨0x40, a⟩ s) hst hsec hlow hhigh hfree hleft
    rw [enrolledState_arrive, enrollRec_eq] at hrun
    exact ⟨_, _, rfl, rfl, exec_event (r := enrollRequest) rfl rfl rfl hp hrun⟩
  · exact exec_answers (r := unenrollRequest) rfl rfl rfl hp (runUnenroll_notEnrolled hst he)
  · exact exec_answers (r := unenrollRequest) rfl rfl rfl hp
      (runUnenroll_busy (s := arrive ch ⟨0x41, a⟩ s) hst he hc)
  · have hrun := runUnenroll_done (s := arrive ch ⟨0x41, a⟩ s) hst he hc
    rw [setStation_arrive, enqueue_arrive, recompute_arrive] at hrun
    exact exec_event (r := unenrollRequest) rfl rfl rfl hp hrun

end Sys2Proof.Machine
end

section
/-! PROOFS. O38: a changeover begun, or ended at once where no station is off the target (R108, R128, R130). -/

namespace Sys2Proof.Machine

variable {a : Args} {s : State} {sec : SectionNo} {target : FormatNo}

/-! ### The stations off the target -/

/-- The enrolled stations of a section that are pending or off a target (R108). -/
def State.offTarget (s : State) (sec : SectionNo) (target : FormatNo) : List StationNo :=
  (s.enrolledIn sec).filter fun st => (sel s.stations st).pending || (sel s.stations st).persist.format != target

theorem mem_enrolledIn {st : StationNo} :
    st ∈ s.enrolledIn sec ↔
      (sel s.stations st).persist.enrolled = true ∧ (sel s.stations st).persist.sect = sec := by
  rw [State.enrolledIn, mem_pick, Bool.and_eq_true, beq_iff_eq]

theorem offTarget_eq_nil : s.offTarget sec target = [] ↔ ∀ st ∈ s.enrolledIn sec,
    (sel s.stations st).pending = false ∧ (sel s.stations st).persist.format = target := by
  simp only [State.offTarget, List.filter_eq_nil_iff, Bool.or_eq_true, bne_iff_ne, not_or, Bool.not_eq_true,
    not_not]

/-- The pending flags as the beginning of a changeover sets them, station by station (R108). -/
theorem sel_markPending (sec : SectionNo) (target : FormatNo) (s : State) (st : StationNo) :
    sel (markPending sec target s).stations st =
      if st ∈ s.enrolledIn sec ∧ (sel s.stations st).persist.format ≠ target then
        { sel s.stations st with pending := true }
      else sel s.stations st := by
  rw [markPending_stations, sel_each]
  simp only [mem_enrolledIn, Bool.and_eq_true, beq_iff_eq, bne_iff_ne]

/-- No station's persisted part changes by its pending flag. -/
theorem markPending_persist (sec : SectionNo) (target : FormatNo) (s : State) (st : StationNo) :
    (sel (markPending sec target s).stations st).persist = (sel s.stations st).persist := by
  rw [sel_markPending]
  split <;> rfl

theorem enrolledIn_markPending (sec : SectionNo) (target : FormatNo) (s : State) :
    (markPending sec target s).enrolledIn sec = s.enrolledIn sec := by
  simp only [State.enrolledIn, markPending_persist]

/-- The pending set with which a changeover begins (R108, R129). -/
theorem pendingSet_markPending (sec : SectionNo) (target : FormatNo) (s : State) :
    (markPending sec target s).pendingSet sec = s.offTarget sec target := by
  rw [State.pendingSet, enrolledIn_markPending]
  refine List.filter_congr fun st hst => ?_
  rw [sel_markPending]
  by_cases hf : (sel s.stations st).persist.format = target <;> simp [hst, hf]

/-! ### The beginning (R128) and the end at once (R130) -/

/-- The section CHANGING to the target, with its deadline timer started. -/
def State.changingSection (s : State) (sec : SectionNo) (target : FormatNo) : State :=
  s.setSectionRec sec ⟨(sel s.sections sec).persist,
    .changing target ((sel s.sections sec).persist.deadline * Config.second)⟩

theorem begun_pendingSet (sec : SectionNo) (target : FormatNo) (s : State) :
    (markPending sec target (s.changingSection sec target)).pendingSet sec = s.offTarget sec target :=
  pendingSet_markPending sec target (s.changingSection sec target)

/-- Where no station is off the target, none is marked. -/
theorem markPending_none (h : s.offTarget sec target = []) : markPending sec target s = s := by
  have hst : (markPending sec target s).stations = s.stations := bank_ext fun st => by
    rw [sel_markPending]
    exact if_neg fun ⟨hin, hf⟩ => hf ((offTarget_eq_nil.1 h) st hin).2
  have hframe : markPending sec target s = { s with stations := (markPending sec target s).stations } := rfl
  rw [hframe, hst]

/-- The end at once does not see that the section was CHANGING. -/
theorem endAtOnce_changingSection (sec : SectionNo) (target : FormatNo) (s : State) :
    endAtOnce sec target (s.changingSection sec target) = endAtOnce sec target s := by
  simp only [endAtOnce, State.changingSection, State.setSectionRec, sel_upd_same, upd_upd]

/-- A changeover begins where some station is off the target, and ends at once where none is. -/
theorem beginChangeover_eq (sec : SectionNo) (target : FormatNo) (s : State) :
    beginChangeover sec target s =
      if s.offTarget sec target = [] then endAtOnce sec target s
      else markPending sec target (s.changingSection sec target) := by
  have hbegin : beginChangeover sec target s =
      if ((markPending sec target (s.changingSection sec target)).pendingSet sec).isEmpty then
        endAtOnce sec target (markPending sec target (s.changingSection sec target))
      else markPending sec target (s.changingSection sec target) := rfl
  rw [hbegin, begun_pendingSet]
  simp only [List.isEmpty_iff]
  split
  · next h =>
    have hnone : (s.changingSection sec target).offTarget sec target = [] := h
    rw [markPending_none hnone, endAtOnce_changingSection]
  · rfl

/-- The state of a changeover that has begun, field by field. -/
theorem begun_eq (sec : SectionNo) (target : FormatNo) (s : State) :
    markPending sec target (s.changingSection sec target) =
      { s with
        sections := upd s.sections sec ⟨(sel s.sections sec).persist,
          .changing target ((sel s.sections sec).persist.deadline * 1000)⟩
        stations := each s.stations fun st r =>
          if st ∈ s.enrolledIn sec ∧ r.persist.format ≠ target then { r with pending := true } else r } := by
  have hst : (markPending sec target (s.changingSection sec target)).stations = each s.stations fun st r =>
      if st ∈ s.enrolledIn sec ∧ r.persist.format ≠ target then { r with pending := true } else r :=
    bank_ext fun st => by rw [sel_markPending, sel_each]; rfl
  rw [← hst]
  rfl

theorem begun_code (sec : SectionNo) (target : FormatNo) (s : State) :
    byteOf (sel (markPending sec target (s.changingSection sec target)).sections sec).state.code = 1 := by
  simp only [markPending_sections, State.changingSection, setSectionRec_sections, sel_upd_same]
  rfl

theorem endAtOnce_pendingSet (h : s.offTarget sec target = []) : (endAtOnce sec target s).pendingSet sec = [] := by
  have hset : (endAtOnce sec target s).pendingSet sec = s.pendingSet sec := by
    simp only [State.pendingSet, State.enrolledIn, endAtOnce, enqueue_stations, setSectionRec_stations]
  rw [hset, State.pendingSet, List.filter_eq_nil_iff]
  intro st hst
  rw [((offTarget_eq_nil.1 h) st hst).1]
  exact Bool.false_ne_true

theorem endAtOnce_code (sec : SectionNo) (target : FormatNo) (s : State) :
    byteOf (sel (endAtOnce sec target s).sections sec).state.code = 0 := by
  simp only [endAtOnce, enqueue_sections, setSectionRec_sections, sel_upd_same]
  rfl

theorem pendingSet_arrive (ch : ChannelNo) (req : Request) (s : State) (sec : SectionNo) :
    State.pendingSet (arrive ch req s) sec = s.pendingSet sec := rfl

/-! ### The request -/

theorem runChangeover_busy (hsec : sectionOf (argByte a 0).toNat = some sec)
    (ht : productFormatOf (argByte a 1).toNat = some target) (hc : s.changing sec = true) :
    runChangeover a s = (s, .refuse .sectionBusy) := by
  simp only [runChangeover, sectionArg, hsec, ht, if_pos hc]

theorem changing_of_steady (h : (sel s.sections sec).state = .steady) : s.changing sec = false := by
  rw [State.changing, h]
  rfl

theorem runChangeover_same (hsec : sectionOf (argByte a 0).toNat = some sec)
    (ht : productFormatOf (argByte a 1).toNat = some target) (hs : (sel s.sections sec).state = .steady)
    (hf : target = (sel s.sections sec).persist.format) : runChangeover a s = (s, .refuse .sameFormat) := by
  have hc : ¬ s.changing sec = true := Bool.eq_false_iff.1 (changing_of_steady hs)
  simp only [runChangeover, sectionArg, hsec, ht, if_neg hc]
  exact if_pos ⟨hs, hf⟩

/-- Past the refusals, the answer tells what the beginning left. -/
theorem runChangeover_begins (hsec : sectionOf (argByte a 0).toNat = some sec)
    (ht : productFormatOf (argByte a 1).toNat = some target) (hc : s.changing sec = false)
    (hf : ¬ ((sel s.sections sec).state = .steady ∧ target = (sel s.sections sec).persist.format)) :
    runChangeover a s =
      (beginChangeover sec target s,
        .done ([byteOf (sel (beginChangeover sec target s).sections sec).state.code,
          byteOf ((beginChangeover sec target s).pendingSet sec).length] ++
            numBytes (sel s.sections sec).persist.deadline)) := by
  simp only [runChangeover, sectionArg, hsec, ht, if_neg (Bool.eq_false_iff.1 hc), if_neg hf]

/-- Settles O38: the refusals, and the beginning by whether a station is off the target. -/
theorem changeoverBegins : Obligations.ChangeoverBegins := by
  intro ch a s sec target hp hsec ht
  refine ⟨fun hc => ?_, fun hs hf => ?_, fun hc hf off hoff => ?_⟩
  · exact exec_answers (r := changeoverRequest) rfl rfl rfl hp
      (runChangeover_busy (s := arrive ch ⟨0x50, a⟩ s) hsec ht hc)
  · exact exec_answers (r := changeoverRequest) rfl rfl rfl hp
      (runChangeover_same (s := arrive ch ⟨0x50, a⟩ s) hsec ht hs hf)
  · have hoff : off = s.offTarget sec target := hoff
    subst hoff
    have hrun := runChangeover_begins (s := arrive ch ⟨0x50, a⟩ s) hsec ht hc hf
    rw [beginChangeover_arrive, beginChangeover_eq, pendingSet_arrive, arrive_sections] at hrun
    refine ⟨fun t hne ht => ?_, fun hnil => ?_⟩
    · rw [if_neg hne, begun_code, begun_pendingSet, begun_eq, ← ht] at hrun
      exact exec_event (r := changeoverRequest) rfl rfl rfl hp hrun
    · rw [if_pos hnil, endAtOnce_code, endAtOnce_pendingSet hnil] at hrun
      exact exec_event (r := changeoverRequest) rfl rfl rfl hp hrun

end Sys2Proof.Machine
end

section
/-! PROOFS. O37: the recompute of a section that is not CHANGING (R125). -/

namespace Sys2Proof.Machine

variable {s : State} {sec : SectionNo}

/-- A recompute replaces the section's own record, and asks for its write exactly where the format is new. -/
theorem recompute_eq (sec : SectionNo) (s : State) :
    recompute sec s =
      if (s.recomputed sec).persist.format = (sel s.sections sec).persist.format then
        s.setSectionRec sec (s.recomputed sec)
      else enqueue (.sect sec) (s.setSectionRec sec (s.recomputed sec)) := by
  unfold recompute State.recomputed
  by_cases hc : s.changing sec = true
  · simp only [if_pos hc, State.setSectionRec, upd_sel, if_true]
  · simp only [if_neg hc]
    cases s.formatsIn sec with
    | nil => rfl
    | cons f rest =>
      by_cases hall : (rest.all fun g => g == f) = true
      · simp only [if_pos hall]
        rfl
      · simp only [if_neg hall, if_true]
        rfl

theorem recompute_same (h : (s.recomputed sec).persist.format = (sel s.sections sec).persist.format) :
    recompute sec s = s.setSectionRec sec (s.recomputed sec) := by
  rw [recompute_eq, if_pos h]

theorem recompute_new (h : (s.recomputed sec).persist.format ≠ (sel s.sections sec).persist.format) :
    recompute sec s = enqueue (.sect sec) (s.setSectionRec sec (s.recomputed sec)) := by
  rw [recompute_eq, if_neg h]

/-- Settles O37: the section's record is the one recomputed, by the formats of its stations. -/
theorem recomputeRule : Obligations.RecomputeRule := by
  refine fun s sec hs => ⟨fun h => ?_, fun f hne h => ⟨fun hf => ?_, fun hf => ?_⟩, fun st st' hst hst' h => ?_⟩
  · have hrec := recomputed_empty hs h
    rw [recompute_same (by rw [hrec]), hrec]
  · have hrec := recomputed_uniform hs hne h
    rw [recompute_same (by rw [hrec]; exact hf), hrec, hf]
  · have hrec := recomputed_uniform hs hne h
    rw [recompute_new (by rw [hrec]; exact hf), hrec]
  · have hrec := recomputed_split hs hst hst' h
    rw [recompute_same (by rw [hrec]), hrec]

end Sys2Proof.Machine
end

section
/-! PROOFS. O39: a changeover ended by its deadline, by ABORT_CHANGEOVER and by the last adoption (R131, R133, R134,
R137, R138). -/

namespace Sys2Proof.Machine

variable {a : Args} {s : State} {sec : SectionNo}

/-! ### The end (R134) -/

/-- What the end of a changeover hands to the recompute: pending flags cleared, target and timer dropped. -/
theorem endChangeover_eq (sec : SectionNo) (s : State) :
    endChangeover sec s = recompute sec
      { s with
        sections := upd s.sections sec ⟨(sel s.sections sec).persist, .steady⟩
        stations := each s.stations fun st r =>
          if st ∈ s.enrolledIn sec then { r with pending := false } else r } := by
  have hstations : (clearPending sec s).stations = each s.stations fun st r =>
      if st ∈ s.enrolledIn sec then { r with pending := false } else r := bank_ext fun st => by
    simp only [clearPending_stations, sel_each, mem_enrolledIn, Bool.and_eq_true, beq_iff_eq]
  have hclear : clearPending sec s = { s with stations := (clearPending sec s).stations } := rfl
  rw [endChangeover, hclear, hstations]
  rfl

/-! ### DEADLINE_EXPIRY (R133, R138) -/

theorem exec_deadlineExpiry (sec : SectionNo) (s : State) : exec (.deadlineExpiry sec) s = .next
    (if timerDue (sel s.sections sec).state.timer then settle s (endChangeover sec s) else s) := rfl

/-- The deadline timer runs in CHANGING alone (R133). -/
theorem timer_of_not_changing (h : s.changing sec = false) : (sel s.sections sec).state.timer = none := by
  unfold State.changing at h
  cases hstate : (sel s.sections sec).state with
  | steady => rfl
  | changing target ms => rw [hstate] at h; cases h
  | split => rfl

/-! ### The adoption notice (R131) -/

theorem pendingSet_eq_nil :
    s.pendingSet sec = [] ↔ ∀ st ∈ s.enrolledIn sec, (sel s.stations st).pending = false := by
  simp only [State.pendingSet, List.filter_eq_nil_iff, Bool.not_eq_true]

theorem adoptionNotice_idle (h : s.changing sec = false) : adoptionNotice sec s = s := by
  simp [adoptionNotice, h]

theorem adoptionNotice_last (hc : s.changing sec = true) (h : s.pendingSet sec = []) :
    adoptionNotice sec s = endChangeover sec s := by
  simp [adoptionNotice, hc, h]

theorem adoptionNotice_pending (h : s.pendingSet sec ≠ []) : adoptionNotice sec s = s := by
  simp [adoptionNotice, h]

/-! ### ABORT_CHANGEOVER (R137) -/

theorem runAbortChangeover_changing (hsec : sectionOf (argByte a 0).toNat = some sec) (hc : s.changing sec = true) :
    runAbortChangeover a s =
      (endChangeover sec s,
        .done [1, byteOf (sel (endChangeover sec s).sections sec).state.code,
          byteOf (sel (endChangeover sec s).sections sec).persist.format.val, byteOf (s.pendingSet sec).length]) := by
  simp only [runAbortChangeover, sectionArg, hsec, if_pos hc]

theorem runAbortChangeover_idle (hsec : sectionOf (argByte a 0).toNat = some sec) (hc : s.changing sec = false) :
    runAbortChangeover a s =
      (s, .done [0, byteOf (sel s.sections sec).state.code, byteOf (sel s.sections sec).persist.format.val, 0]) := by
  simp only [runAbortChangeover, sectionArg, hsec, if_neg (Bool.eq_false_iff.1 hc)]

/-- Settles O39: the expiry by its timer, the notice by the pending set, and the abort by the section's state; each end
is the one of R134. -/
theorem changeoverEnds : Obligations.ChangeoverEnds := by
  intro s sec t ht
  rw [← endChangeover_eq] at ht
  refine ⟨fun target ms hstate => ⟨fun hdue => ?_, fun hearly => ?_⟩, fun hc => ⟨?_, adoptionNotice_idle hc⟩,
    fun hc => ⟨fun hnone => ?_, fun hsome => ?_⟩, fun ch a hp hsec => ⟨fun hc => ?_, fun hc => ?_⟩⟩
  · rw [exec_deadlineExpiry, hstate, ht]
    exact congrArg _ (if_pos (decide_eq_true hdue))
  · rw [exec_deadlineExpiry, hstate]
    exact congrArg _ (if_neg (by simpa [SectionState.timer] using hearly))
  · rw [exec_deadlineExpiry, timer_of_not_changing hc, timerDue_none, if_neg Bool.false_ne_true]
  · rw [ht, adoptionNotice_last hc (pendingSet_eq_nil.2 hnone)]
  · obtain ⟨st, hst, hpending⟩ := hsome
    refine adoptionNotice_pending fun hnil => ?_
    rw [pendingSet_eq_nil.1 hnil st hst] at hpending
    cases hpending
  · have hrun := runAbortChangeover_changing (s := arrive ch ⟨0x51, a⟩ s) hsec hc
    rw [endChangeover_arrive, ← ht] at hrun
    exact exec_event (r := abortChangeoverRequest) rfl rfl rfl hp hrun
  · exact exec_answers (r := abortChangeoverRequest) rfl rfl rfl hp
      (runAbortChangeover_idle (s := arrive ch ⟨0x51, a⟩ s) hsec hc)

end Sys2Proof.Machine
end

section
/-! PROOFS. O40: SET_SECTION and READ_SECTION (R139, R140). -/

namespace Sys2Proof.Machine

variable {a : Args} {s : State} {sec : SectionNo}

/-! ### SET_SECTION (R139) -/

/-- The section with another deadline setting, its record's write asked for (R139). -/
def State.withDeadline (s : State) (sec : SectionNo) (deadline : Nat) : State :=
  enqueue (.sect sec) (s.setSectionRec sec
    ⟨{ (sel s.sections sec).persist with deadline := deadline }, (sel s.sections sec).state⟩)

theorem withDeadline_arrive (ch : ChannelNo) (req : Request) (s : State) (sec : SectionNo) (deadline : Nat) :
    State.withDeadline (arrive ch req s) sec deadline = arrive ch req (s.withDeadline sec deadline) := by
  simp only [State.withDeadline, arrive_sections, setSectionRec_arrive, enqueue_arrive]

/-- A deadline setting is no state and no format of a section. -/
theorem sel_withDeadline (s : State) (sec : SectionNo) (deadline : Nat) (x : SectionNo) :
    (sel (s.withDeadline sec deadline).sections x).state = (sel s.sections x).state ∧
      (sel (s.withDeadline sec deadline).sections x).persist.format = (sel s.sections x).persist.format := by
  rw [State.withDeadline, enqueue_sections, setSectionRec_sections, sel_upd]
  split
  · next h => subst h; exact ⟨rfl, rfl⟩
  · exact ⟨rfl, rfl⟩

/-- A deadline setting forms no output and sets no flag. -/
theorem settle_withDeadline (s : State) (sec : SectionNo) (deadline : Nat) :
    settle s (s.withDeadline sec deadline) = s.withDeadline sec deadline := by
  have hkept := sel_withDeadline s sec deadline
  have hcauses : causes s (s.withDeadline sec deadline) = .empty := by
    simp only [causes, hkept]
    simp [State.withDeadline, EventSet.empty]
  rw [settle_formed fun x => (commandFormed_congr x (by simp [State.withDeadline]) (hkept x).1
    (by simp [State.withDeadline]) (by simp [State.withDeadline])).symm, hcauses, raise_empty]

theorem runSetSection_out (hsec : sectionOf (argByte a 0).toNat = some sec)
    (h : (argHalf a 1).toNat < 30 ∨ 3600 < (argHalf a 1).toNat) : runSetSection a s = (s, .refuse .badArgument) := by
  simp only [runSetSection, sectionArg, hsec, if_pos h]

theorem runSetSection_busy (hsec : sectionOf (argByte a 0).toNat = some sec)
    (h : ¬ ((argHalf a 1).toNat < 30 ∨ 3600 < (argHalf a 1).toNat)) (hc : s.changing sec = true) :
    runSetSection a s = (s, .refuse .sectionBusy) := by
  simp only [runSetSection, sectionArg, hsec, if_neg h, if_pos hc]

theorem runSetSection_done (hsec : sectionOf (argByte a 0).toNat = some sec)
    (h : ¬ ((argHalf a 1).toNat < 30 ∨ 3600 < (argHalf a 1).toNat)) (hc : s.changing sec = false) :
    runSetSection a s = (s.withDeadline sec (argHalf a 1).toNat, .done (halfBytes (argHalf a 1))) := by
  simp only [runSetSection, sectionArg, hsec, if_neg h, if_neg (Bool.eq_false_iff.1 hc), numBytes_toNat,
    State.withDeadline]

/-! ### READ_SECTION (R140) -/

theorem answerReadSection_eq (hsec : sectionOf (argByte a 0).toNat = some sec) :
    answerReadSection a s = .done
      ([byteOf (sel s.sections sec).state.code, byteOf (sel s.sections sec).persist.format.val,
          byteOf (sel s.sections sec).state.target, byteOf (s.enrolledIn sec).length,
          byteOf (if s.changing sec then (s.pendingSet sec).length else 0)] ++
        numBytes (secondsShown (sel s.sections sec).state.timer) ++ numBytes (sel s.sections sec).persist.deadline ++
        [outputByte (sel s.outputs sec)]) := by
  simp only [answerReadSection, sectionArg, hsec]

/-- Settles O40: the outcomes of SET_SECTION by the deadline and the section's state, and the section as it is read. -/
theorem sectionRequests : Obligations.SectionRequests := by
  refine fun ch a s sec hsec => ⟨fun hp => ⟨fun hout => ?_, fun hlow hhigh => ?_⟩, fun hp => ?_⟩
  · exact exec_answers (r := setSectionRequest) rfl rfl rfl hp (runSetSection_out hsec hout)
  · have hin : ¬ ((argHalf a 1).toNat < 30 ∨ 3600 < (argHalf a 1).toNat) := by omega
    refine ⟨fun hc => ?_, fun hc => ?_⟩
    · exact exec_answers (r := setSectionRequest) rfl rfl rfl hp
        (runSetSection_busy (s := arrive ch ⟨0x52, a⟩ s) hsec hin hc)
    · have hrun := runSetSection_done (s := arrive ch ⟨0x52, a⟩ s) hsec hin hc
      rw [withDeadline_arrive] at hrun
      rw [exec_event (r := setSectionRequest) rfl rfl rfl hp hrun, settle_withDeadline]
      rfl
  · have hanswer := answerReadSection_eq (s := s) hsec
    rw [secondsShown_eq] at hanswer
    exact exec_answers (r := readSectionRequest) rfl rfl rfl hp (congrArg _ hanswer)

end Sys2Proof.Machine
end

section
/-! SUPPORT. A law of the stations' and the sections' records: what it takes for every step to keep it. -/

namespace Sys2Proof.Machine

/-- A law of the stations' and the sections' records alone, that holds of the records as delivered, and that the
requests and events by which such records change keep. -/
structure RecordsLaw (P : State → Prop) : Prop where
  frame : ∀ {s t : State}, P s → RecordsFrame s t → P t
  delivered : P State.reset
  tick : ∀ {s : State}, P s → P s.tick
  requests : ∀ {q : RequestSpec}, q ∈ recordRequests → ∀ (ch : ChannelNo) (a : Args) {s : State},
    P s → P (q.run ch a s).1
  windowExpiry : ∀ (st : StationNo) {s : State}, P s →
    P (s.setStation st { sel s.stations st with timer := none, stale := true })
  deadlineExpiry : ∀ (sec : SectionNo) {s : State}, P s → P (endChangeover sec s)
  completion : ∀ (all : List SlotResult) {s : State}, P s → P (applyCompletion all s)
  scanEnd : ∀ (w : ScanWrites) (s : State), P (recomputeAll (loadArray w s))

namespace RecordsLaw

variable {P : State → Prop} {s t : State} (hP : RecordsLaw P)
include hP

/-! ### Requests and images -/

theorem run {code : Nat} {q : RequestSpec} (hq : requestOf code = some q) (ch : ChannelNo) (a : Args) (h : P s) :
    P (q.run ch a s).1 :=
  (requestOf_records ch a s hq).elim (fun hmem => hP.requests hmem ch a h) fun hframe => hP.frame h hframe

theorem takeCode (ch : ChannelNo) (code : Byte) (a : Args) (h : P s) : P (takeCode ch code a s) := by
  have harrive : ∀ req, P (arrive ch req s) := fun req => hP.frame h ⟨rfl, rfl⟩
  unfold Machine.takeCode
  split
  · next q hq =>
    unfold takeRequest
    split
    · unfold handOn
      split
      · exact hP.frame (harrive _) (.reply _ _ _)
      · have hrun := hP.run hq ch a (harrive ⟨q.code, a⟩)
        exact hP.frame hrun (((RecordsFrame.refl _).settle _).trans (.reply _ _ _))
    · exact h
  · unfold takeUnlisted
    split
    · exact hP.frame (harrive _) (.reply _ _ _)
    · exact h

theorem takeControl (image : OutputImage) (ch : ChannelNo) (h : P s) : P (takeControl image s ch) := by
  simp only [Machine.takeControl]
  split
  · exact hP.frame h ⟨rfl, rfl⟩
  · split
    · exact hP.frame h ⟨rfl, rfl⟩
    · split
      · exact hP.takeCode _ _ _ h
      · exact hP.frame h ⟨rfl, rfl⟩

theorem imageExchange {image : OutputImage} (ht : exec (.imageExchange image) s = .next t) (h : P s) : P t := by
  have hfold : ∀ (l : List ChannelNo) (u : State), P u → P (l.foldl (Machine.takeControl image) u) := by
    intro l
    induction l with
    | nil => exact fun _ hu => hu
    | cons ch l ih => exact fun u hu => ih _ (hP.takeControl image ch hu)
  cases ht
  split
  · exact hfold _ _ (hP.frame (t := beginExchange s) h ⟨rfl, rfl⟩)
  · exact h

/-! ### The other commands -/

theorem itemCompletion {o : SlotOutcome} (ht : exec (.proposalItemCompletion o) s = .next t) (h : P s) : P t := by
  rcases execProposalItemCompletion_cases ht with rfl | ⟨ch, number, plans, results, p, -, -, -, rfl⟩
  · exact h
  · have hwritten : P { s with array := (writeSlotPlan p o s.array).1 } := hP.frame h ⟨rfl, rfl⟩
    refine hP.frame (hP.completion (plans.zip (results ++ [(writeSlotPlan p o s.array).2])) hwritten) ⟨?_, ?_⟩
    · simp only [endItem, completeItem, takeItem_stations, deliver_stations, settle_stations,
        removeProposal_stations]
    · simp only [endItem, completeItem, takeItem_sections, deliver_sections, settle_sections,
        removeProposal_sections]

/-- Every command keeps such a law. -/
theorem exec {c : Instr} (ht : exec c s = .next t) (h : P s) : P t := by
  have hreset : ∀ {u}, RecordsFrame State.reset u → P u := fun hu => hP.frame hP.delivered hu
  cases hreq : requestParts c with
  | some x =>
    rw [exec_request hreq] at ht
    cases ht
    exact hP.takeCode _ _ _ h
  | none =>
    cases hc : isRecordEvent c with
    | false => exact hP.frame h (exec_records hreq hc ht)
    | true =>
      cases c <;> simp only [isRecordEvent, reduceCtorEq] at hc
      case imageExchange image => exact hP.imageExchange ht h
      case windowExpiry st =>
        cases ht
        split
        · exact hP.frame (hP.windowExpiry st h) (.settle s (.refl _))
        · exact h
      case deadlineExpiry sec =>
        cases ht
        split
        · exact hP.frame (hP.deadlineExpiry sec h) (.settle s (.refl _))
        · exact h
      case proposalItemCompletion o => exact hP.itemCompletion ht h
      case powerOn i l => cases ht; split <;> exact hreset ⟨rfl, rfl⟩
      case busReset i l =>
        cases ht
        split
        · exact hP.frame h ⟨rfl, rfl⟩
        · exact hreset ⟨rfl, rfl⟩
      case busResetLineAsserted i =>
        cases ht
        split
        · exact hP.frame h ⟨rfl, rfl⟩
        · exact hreset ⟨rfl, rfl⟩
      case logicSupplyLoss i => cases ht; exact hreset ⟨rfl, rfl⟩
      case startUpScanEnd w =>
        rcases execStartUpScanEnd_eq ht with ht | ⟨-, ht⟩ <;> rw [ht]
        · exact h
        · exact hP.frame (hP.scanEnd w s) (scanEnd_records _)

/-- Every step keeps such a law. -/
theorem step (ht : step s = .next t) (h : P s) : P t := by
  rcases step_cases ht with ⟨c, rest, -, ht⟩ | rfl
  · exact hP.exec ht (hP.frame h ⟨rfl, rfl⟩)
  · exact hP.tick h

end RecordsLaw

end Sys2Proof.Machine
end

section
/-! PROOFS. O58: every step keeps a STEADY section's enrolled stations on its format (R123). A recompute establishes it
for its own section (R125), so an event need only keep it for the others. -/

namespace Sys2Proof.Machine

variable {s t : State} {sec : SectionNo} {r : StationRec}

/-! ### One section -/

/-- R123 of one section. -/
def State.SectionLawful (s : State) (sec : SectionNo) : Prop :=
  (sel s.sections sec).state = .steady →
    ∀ st ∈ s.enrolledIn sec, (sel s.stations st).persist.format = (sel s.sections sec).persist.format

theorem sectionLaw_iff : SectionLaw s ↔ ∀ sec, s.SectionLawful sec := by
  simp only [SectionLaw, State.SectionLawful, mem_enrolledIn]
  exact ⟨fun h sec hs st ⟨he, hin⟩ => h sec st hs he hin, fun h sec st hs he hin => h sec hs st ⟨he, hin⟩⟩

/-- A section that is STEADY only where it was so on the same format, with the persisted parts of the stations' records
as they were. -/
theorem State.SectionLawful.mono (h : s.SectionLawful sec)
    (hst : ∀ st, (sel t.stations st).persist = (sel s.stations st).persist)
    (hstate : (sel t.sections sec).state = .steady → (sel s.sections sec).state = .steady)
    (hformat : (sel t.sections sec).persist.format = (sel s.sections sec).persist.format) : t.SectionLawful sec := by
  intro hs st hin
  rw [mem_enrolledIn, hst, ← mem_enrolledIn] at hin
  rw [hst, hformat]
  exact h (hstate hs) st hin

/-- A CHANGING section may have stations on any format. -/
theorem sectionLawful_of_changing (h : s.changing sec = true) : s.SectionLawful sec := by
  intro hs
  rw [changing_of_steady hs] at h
  cases h

/-- R125 establishes R123: a section that a recompute leaves STEADY has its stations on the format it leaves. -/
theorem recomputed_format (h : (s.recomputed sec).state = .steady) {st : StationNo} (hin : st ∈ s.enrolledIn sec) :
    (sel s.stations st).persist.format = (s.recomputed sec).persist.format := by
  have hmem : (sel s.stations st).persist.format ∈ s.formatsIn sec := List.mem_map_of_mem hin
  unfold State.recomputed at h ⊢
  split at h
  · next hc =>
    rw [changing_of_steady h] at hc
    cases hc
  · next hc =>
    rw [if_neg hc]
    split at h
    · next hnil =>
      rw [hnil] at hmem
      cases hmem
    · next f rest hcons =>
      split at h
      · next hall =>
        simp only [if_pos hall]
        rw [hcons] at hmem
        rcases List.mem_cons.1 hmem with hf | hrest
        · exact hf
        · exact beq_iff_eq.1 (List.all_eq_true.1 hall _ hrest)
      · cases h

/-! ### The other sections -/

/-- R123 of every section but one. -/
def State.OthersLawful (s : State) (sec : SectionNo) : Prop := ∀ x, x ≠ sec → s.SectionLawful x

theorem SectionLaw.others (h : SectionLaw s) (sec : SectionNo) : s.OthersLawful sec :=
  fun x _ => sectionLaw_iff.1 h x

namespace State.OthersLawful

theorem sectionLaw (h : s.OthersLawful sec) (hsec : s.SectionLawful sec) : SectionLaw s := by
  refine sectionLaw_iff.2 fun x => ?_
  by_cases hx : x = sec
  · exact hx ▸ hsec
  · exact h x hx

theorem enqueue (h : s.OthersLawful sec) (i : WriteItem) : (enqueue i s).OthersLawful sec := fun x hx =>
  (h x hx).mono (fun st => by rw [enqueue_stations]) (fun hs => by rwa [enqueue_sections] at hs)
    (by rw [enqueue_sections])

/-- What becomes of its own record does not concern the other sections. -/
theorem setSectionRec (h : s.OthersLawful sec) (r : SectionRec) : (s.setSectionRec sec r).OthersLawful sec := by
  intro x hx
  have hsame : sel (s.setSectionRec sec r).sections x = sel s.sections x := sel_upd_ne _ _ hx
  exact (h x hx).mono (fun _ => rfl) (fun hs => by rwa [hsame] at hs) (by rw [hsame])

/-- A station that is enrolled in the section, or in none, does not concern the other sections. -/
theorem setStation (h : s.OthersLawful sec) (st : StationNo)
    (hr : r.persist.enrolled = true → r.persist.sect = sec) : (s.setStation st r).OthersLawful sec := by
  intro x hx hs st' hin
  have hne : st' ≠ st := by
    rintro rfl
    rw [mem_enrolledIn, setStation_stations, sel_upd_same] at hin
    exact hx (hin.2.symm.trans (hr hin.1))
  rw [mem_enrolledIn, setStation_stations, sel_upd_ne _ _ hne, ← mem_enrolledIn] at hin
  rw [setStation_stations, sel_upd_ne _ _ hne]
  exact h x hx hs st' hin

theorem recompute (h : s.OthersLawful sec) : SectionLaw (recompute sec s) := by
  refine sectionLaw (sec := sec) (fun x hx => ?_) fun hs st hin => ?_
  · have hsame : sel (Machine.recompute sec s).sections x = sel s.sections x := by
      rw [recompute_sections, sel_upd_ne _ _ hx]
    exact (h x hx).mono (fun st => by rw [recompute_stations]) (fun hs => by rwa [hsame] at hs) (by rw [hsame])
  · rw [recompute_sections, sel_upd_same] at hs ⊢
    rw [mem_enrolledIn, recompute_stations, ← mem_enrolledIn] at hin
    rw [recompute_stations]
    exact recomputed_format hs hin

end State.OthersLawful

/-! ### All sections -/

namespace SectionLaw

theorem mono (h : SectionLaw s) (hst : ∀ st, (sel t.stations st).persist = (sel s.stations st).persist)
    (hstate : ∀ sec, (sel t.sections sec).state = .steady → (sel s.sections sec).state = .steady)
    (hformat : ∀ sec, (sel t.sections sec).persist.format = (sel s.sections sec).persist.format) : SectionLaw t :=
  sectionLaw_iff.2 fun sec => (sectionLaw_iff.1 h sec).mono hst (hstate sec) (hformat sec)

theorem congr (h : SectionLaw s) (hst : ∀ st, (sel t.stations st).persist = (sel s.stations st).persist)
    (hsec : t.sections = s.sections) : SectionLaw t :=
  h.mono hst (fun _ => by rw [hsec]; exact id) fun _ => by rw [hsec]

theorem frame (h : SectionLaw s) (ht : RecordsFrame s t) : SectionLaw t :=
  h.congr (fun _ => by rw [ht.stations]) ht.sections

theorem enqueue (h : SectionLaw s) (i : WriteItem) : SectionLaw (enqueue i s) :=
  h.frame (.enqueue i (.refl s))

/-- A station's record whose persisted part stays. -/
theorem setStation (h : SectionLaw s) (st : StationNo) (hr : r.persist = (sel s.stations st).persist) :
    SectionLaw (s.setStation st r) := by
  refine h.congr (fun st' => ?_) rfl
  rw [setStation_stations, sel_upd]
  split
  · next hst => rw [hr, hst]
  · rfl

theorem endChangeover (h : SectionLaw s) (sec : SectionNo) : SectionLaw (endChangeover sec s) := by
  have hclear : SectionLaw (clearPending sec s) := by
    refine h.congr (fun st => ?_) (clearPending_sections sec s)
    rw [clearPending_stations, sel_each]
    split <;> rfl
  unfold Machine.endChangeover
  dsimp only
  exact ((hclear.others sec).setSectionRec _).recompute

theorem adoptionNotice (h : SectionLaw s) (sec : SectionNo) : SectionLaw (adoptionNotice sec s) := by
  unfold Machine.adoptionNotice
  split
  · exact h.endChangeover sec
  · exact h

/-- A changeover begins CHANGING, or ends at once with every station of the section on the target. -/
theorem beginChangeover (h : SectionLaw s) (sec : SectionNo) (target : FormatNo) :
    SectionLaw (beginChangeover sec target s) := by
  rw [beginChangeover_eq]
  split
  · next hoff =>
    refine SectionLaw.enqueue (((h.others sec).setSectionRec _).sectionLaw fun _ st hin => ?_) _
    rw [setSectionRec_sections, sel_upd_same]
    exact (offTarget_eq_nil.1 hoff st hin).2
  · have hchanging : (s.changingSection sec target).changing sec = true := by
      rw [State.changing, State.changingSection, setSectionRec_sections, sel_upd_same]
      rfl
    have hbegun : SectionLaw (s.changingSection sec target) :=
      ((h.others sec).setSectionRec _).sectionLaw (sectionLawful_of_changing hchanging)
    exact hbegun.congr (markPending_persist sec target _) (markPending_sections sec target _)

end SectionLaw

/-! ### The requests -/

variable (ch : ChannelNo) (a : Args)

/-- The station joins its new section on that section's format, and both sections are recomputed (R95). -/
theorem runEnroll_sectionLaw (h : SectionLaw s) : SectionLaw (runEnroll a s).1 := by
  simp only [runEnroll]
  split
  · next st sec _ _ =>
    have henrolled : ∀ w f, SectionLaw (recompute sec (enqueue (.station st)
        (s.setStation st (enrollRec s.slots st sec w f (sel s.stations st))))) := fun w f =>
      (((h.others sec).setStation st fun _ => rfl).enqueue _).recompute
    split
    · exact h
    · split
      · exact h
      · dsimp only
        split
        · exact ((henrolled _ _).others _).recompute
        · exact henrolled _ _
  · exact h

theorem runUnenroll_sectionLaw (h : SectionLaw s) : SectionLaw (runUnenroll a s).1 := by
  simp only [runUnenroll]
  split
  · exact h
  · next st _ =>
    split
    · exact h
    · split
      · exact h
      · exact (((h.others _).setStation st fun _ => rfl).enqueue _).recompute

theorem recordValue_persist (p : ParamNo) (v : Word) (finding : Option ParamKind) (r : StationRec) :
    (recordValue p v finding r).persist = r.persist := by
  cases finding with
  | none => rfl
  | some k => rw [recordValue, find_frame]

theorem runReportValue_sectionLaw (h : SectionLaw s) : SectionLaw (runReportValue a s).1 := by
  simp only [runReportValue]
  split
  · next st p _ _ =>
    split
    · exact h
    · split
      · exact h
      · exact h.setStation st (recordValue_persist _ _ _ _)
  · exact h

theorem changing_of_changingTo {f : FormatNo} (h : s.changingTo sec f = true) : s.changing sec = true := by
  unfold State.changingTo at h
  unfold State.changing
  cases hstate : (sel s.sections sec).state with
  | steady => rw [hstate] at h; cases h
  | changing target ms => rfl
  | split => rw [hstate] at h; cases h

/-- A station changes its format by its report alone, and then its section is CHANGING (R103, R106). -/
theorem reportAdoption_sectionLaw (h : SectionLaw s) (st : StationNo) (f : FormatNo) (d : DigestPair)
    (hr : r.persist = (sel s.stations st).persist) (hc : s.changing r.persist.sect = true) :
    SectionLaw (reportAdoption st f d r s).1 := by
  simp only [reportAdoption]
  split
  · have hadopted : SectionLaw (s.setStation st (adoptRec s.slots st f r)) :=
      ((h.others r.persist.sect).setStation (r := adoptRec s.slots st f r) st fun _ => rfl).sectionLaw
        (sectionLawful_of_changing hc)
    exact (hadopted.enqueue _).adoptionNotice _
  · exact h.setStation st (by rw [findLevel_frame]; exact hr)

theorem judgeDigest_sectionLaw (h : SectionLaw s) (st : StationNo) (f : FormatNo) (d : DigestPair)
    (hr : r.persist = (sel s.stations st).persist) : SectionLaw (judgeDigest st f d r s).1 := by
  have hlevel : ∀ k, SectionLaw (s.setStation st (r.findLevel k f d.digest)) := fun k =>
    h.setStation st (by rw [findLevel_frame]; exact hr)
  simp only [judgeDigest]
  split
  · simp only [reportActive]
    split
    · exact h.setStation st hr
    · exact hlevel _
  · split
    · next hadopts =>
      exact reportAdoption_sectionLaw h st f d hr (changing_of_changingTo (Bool.and_eq_true_iff.1 hadopts).2)
    · exact hlevel _

theorem runReportDigest_sectionLaw (h : SectionLaw s) : SectionLaw (runReportDigest a s).1 := by
  simp only [runReportDigest]
  split
  · next st f _ _ =>
    split
    · exact h
    · split
      · exact h
      · split
        · exact h
        · exact judgeDigest_sectionLaw h st f _ rfl
  · exact h

theorem runHold_sectionLaw (h : SectionLaw s) : SectionLaw (runHold ch a s).1 := by
  simp only [runHold]
  split
  · exact h
  · next st _ =>
    split
    · exact h
    · split
      · exact h.setStation st rfl
      · split <;> exact h

theorem runReleaseHold_sectionLaw (h : SectionLaw s) : SectionLaw (runReleaseHold ch a s).1 := by
  simp only [runReleaseHold]
  split
  · exact h
  · next st _ =>
    split
    · exact h
    · split
      · exact h
      · split
        · exact h
        · exact h.setStation st rfl

theorem runChangeover_sectionLaw (h : SectionLaw s) : SectionLaw (runChangeover a s).1 := by
  simp only [runChangeover]
  split
  · split
    · exact h
    · split
      · exact h
      · dsimp only
        exact h.beginChangeover _ _
  · exact h

theorem runAbortChangeover_sectionLaw (h : SectionLaw s) : SectionLaw (runAbortChangeover a s).1 := by
  simp only [runAbortChangeover]
  split
  · exact h
  · split
    · dsimp only
      exact h.endChangeover _
    · exact h

theorem runSetSection_sectionLaw (h : SectionLaw s) : SectionLaw (runSetSection a s).1 := by
  simp only [runSetSection]
  split
  · exact h
  · next sec _ =>
    split
    · exact h
    · split
      · exact h
      · have hkept := sel_withDeadline s sec (argHalf a 1).toNat
        exact h.mono (t := s.withDeadline sec (argHalf a 1).toNat)
          (fun st => by rw [State.withDeadline, enqueue_stations, setSectionRec_stations])
          (fun x hs => by rwa [(hkept x).1] at hs) fun x => (hkept x).2

/-- The nine requests by which records of stations or sections change. -/
theorem recordRequests_sectionLaw {q : RequestSpec} (hq : q ∈ recordRequests) (h : SectionLaw s) :
    SectionLaw (q.run ch a s).1 := by
  simp only [recordRequests, List.mem_cons, List.not_mem_nil, or_false] at hq
  rcases hq with rfl | rfl | rfl | rfl | rfl | rfl | rfl | rfl | rfl
  · exact runEnroll_sectionLaw a h
  · exact runUnenroll_sectionLaw a h
  · exact runReportValue_sectionLaw a h
  · exact runReportDigest_sectionLaw a h
  · exact runHold_sectionLaw ch a h
  · exact runReleaseHold_sectionLaw ch a h
  · exact runChangeover_sectionLaw a h
  · exact runAbortChangeover_sectionLaw a h
  · exact runSetSection_sectionLaw a h

/-! ### Events -/

/-- A re-judgement leaves the persisted part of every station's record (R110, R111). -/
theorem rejudge_persist (before : SlotMap Entry) (keys : List Key) (s : State) (st : StationNo) :
    (sel (rejudge before keys s).stations st).persist = (sel s.stations st).persist := by
  have hfold : ∀ (l : List (StationNo × ParamNo)) (g : StationNo × ParamNo → Resolution × Option Entry)
      (r : StationRec), (l.foldl (fun r' x => rejudgeRec x.2 (g x).1 (g x).2 r') r).persist = r.persist := by
    intro l g
    induction l with
    | nil => exact fun _ => rfl
    | cons x l ih => exact fun r => (ih _).trans (rejudgeRec_persist _ _ _ _)
  rw [sel_rejudge_stations, rejudgedRec]
  split
  · exact hfold _ (fun x => (_, _)) _
  · rfl

theorem applyCompletion_sectionLaw (all : List SlotResult) (h : SectionLaw s) :
    SectionLaw (applyCompletion all s) := by
  unfold applyCompletion
  dsimp only
  refine h.congr (rejudge_persist _ _ _) ?_
  rw [rejudge_frame]

/-- The recompute of every section establishes R123, whatever records were loaded (R142). -/
theorem recomputeAll_sectionLaw (s : State) : SectionLaw (recomputeAll s) := by
  refine sectionLaw_iff.2 fun sec hs st hin => ?_
  rw [sel_recomputeAll] at hs ⊢
  rw [mem_enrolledIn, recomputeAll_stations, ← mem_enrolledIn] at hin
  rw [recomputeAll_stations]
  exact recomputed_format hs hin

theorem SectionLaw.tick (h : SectionLaw s) : SectionLaw s.tick := by
  have hsec : ∀ sec, sel s.tick.sections sec =
      { sel s.sections sec with state := (sel s.sections sec).state.tick } := fun sec => sel_each _ _ _
  refine h.mono (fun st => ?_) (fun sec hs => ?_) fun sec => by rw [hsec]
  · simp only [State.tick, sel_each]
    rfl
  · rw [hsec] at hs
    cases hstate : (sel s.sections sec).state with
    | steady => rfl
    | changing target ms => rw [hstate] at hs; cases hs
    | split => rw [hstate] at hs; cases hs

theorem sectionLaw_recordsLaw : RecordsLaw SectionLaw where
  frame h hst := h.frame hst
  delivered := sectionLaw_iff.2 fun sec _ st hin => by
    rw [mem_enrolledIn] at hin
    simp [State.reset, StationRec.idle, StationPersist.delivery] at hin
  tick h := h.tick
  requests hq ch a _ h := recordRequests_sectionLaw ch a hq h
  windowExpiry st _ h := h.setStation st rfl
  deadlineExpiry sec _ h := h.endChangeover sec
  completion all _ h := applyCompletion_sectionLaw all h
  scanEnd w s := recomputeAll_sectionLaw (loadArray w s)

/-- Settles O58: R123 is a law of the records that every request and event by which they change keeps. -/
theorem stepKeepsSectionLaw : Obligations.StepKeepsSectionLaw :=
  fun _ _ h hstep => sectionLaw_recordsLaw.step hstep h

end Sys2Proof.Machine
end

section
/-! SUPPORT. The outputs: what each mode forms (R145, R146), what a command leaves of an output (R150, R193), and each
output after an event. -/

namespace Sys2Proof.Machine

variable {s t : State} {sec : SectionNo}

/-! ### What the modes form -/

theorem ready_iff : s.ready = true ↔ s.phase = .running := beq_iff_eq

/-- Before READY every output is formed OFF (R145). -/
theorem commandFormed_unready (h : s.phase ≠ .running) (sec : SectionNo) : s.commandFormed sec = false := by
  have hready : s.ready = false := beq_eq_false_iff_ne.2 h
  rw [State.commandFormed, hready, Bool.false_and]

/-- R146. -/
theorem autoCondition_iff : s.autoCondition sec = true ↔
    s.phase = .running ∧ (sel s.sections sec).state = .steady ∧ (∃ st, st ∈ s.enrolledIn sec) ∧
      ∀ st ∈ s.enrolledIn sec, derivedState (sel s.stations st) = .conforming := by
  simp only [State.autoCondition, Bool.and_eq_true, ready_iff, beq_iff_eq, Bool.not_eq_true', 
    List.isEmpty_eq_false_iff_exists_mem, List.all_eq_true, and_assoc]

theorem commandFormed_of_auto (h : (sel s.outputs sec).mode = .auto) : s.commandFormed sec = s.autoCondition sec := by
  simp only [State.commandFormed, h, State.autoCondition, ← Bool.and_assoc, Bool.and_self]

theorem commandFormed_of_forcedOff (h : (sel s.outputs sec).mode = .forcedOff) : s.commandFormed sec = false := by
  simp only [State.commandFormed, h, Bool.and_false]

theorem commandFormed_of_bypass {n : Nat} (h : (sel s.outputs sec).mode = .bypass n) :
    s.commandFormed sec = s.ready := by
  simp only [State.commandFormed, h, Bool.and_true]

/-! ### What a command leaves -/

/-- The change to ON starts the 50 ms, within which there is no OUTPUT_FAULT (R150). -/
theorem command_on {o : Output} (h : o.commanded = false) :
    o.command true = { o with commanded := true, faultDelay := some 50, tripped := false, fault := false } := by
  simp [Output.command, h, Output.reform, Output.faultFormed, Config.outputFaultDelay]

/-- The change to OFF ends the 50 ms, the OUTPUT_FAULT and the trip (R150, R193). -/
theorem command_off {o : Output} (h : o.commanded = true) :
    o.command false = { o with commanded := false, faultDelay := none, tripped := false, fault := false } := by
  simp [Output.command, h, Output.reform, Output.faultFormed]

/-! ### Each output after an event -/

theorem sel_settle_same (h : s.commandFormed sec = t.commandFormed sec) :
    sel (settle s t).outputs sec = sel t.outputs sec := by
  rw [settle_outputs, formOutputs_sel, if_pos h]

theorem sel_settle_changed (h : s.commandFormed sec ≠ t.commandFormed sec) :
    sel (settle s t).outputs sec = (sel t.outputs sec).command (t.commandFormed sec) := by
  rw [settle_outputs, formOutputs_sel, if_neg h]

end Sys2Proof.Machine
end

section
/-! PROOFS. O41: the commanded state that each mode forms (R145, R146). -/

namespace Sys2Proof.Machine

/-- Settles O41: the AUTO condition spelled out by the stations enrolled in the section, and the other two modes. -/
theorem autoConditionRule : Obligations.AutoConditionRule := by
  refine fun s sec => ⟨fun hauto => ?_, commandFormed_of_forcedOff, fun n => commandFormed_of_bypass⟩
  simp only [commandFormed_of_auto hauto, autoCondition_iff, mem_enrolledIn, and_imp]

end Sys2Proof.Machine
end

section
/-! PROOFS. O42: how an event ends (R145, R150, R183, R184). -/

namespace Sys2Proof.Machine

variable (s u : State)

/-- The causes of Table 51, flag by flag (R183). -/
theorem causes_iff :
    ((causes s u).proposals = true ↔ s.proposals.map Proposal.stamp ≠ u.proposals.map Proposal.stamp) ∧
    ((causes s u).stations = true ↔ ∃ st, derivedState (sel s.stations st) ≠ derivedState (sel u.stations st)) ∧
    ((causes s u).sections = true ↔ ∃ sec, (sel s.sections sec).state.code ≠ (sel u.sections sec).state.code ∨
      (sel s.sections sec).persist.format ≠ (sel u.sections sec).persist.format ∨
      (sel s.outputs sec).commanded ≠ (sel u.outputs sec).commanded ∨
      (sel s.outputs sec).readback ≠ (sel u.outputs sec).readback ∨
      (sel s.outputs sec).fault ≠ (sel u.outputs sec).fault) ∧
    ((causes s u).release = true ↔ s.release.isSome ≠ u.release.isSome) ∧
    ((causes s u).store = true ↔ s.degraded = false ∧ u.degraded = true) := by
  simp only [causes, decide_eq_true_eq, List.any_eq_true, List.mem_finRange, true_and, Bool.or_eq_true, or_assoc,
    Bool.and_eq_true, Bool.not_eq_true', and_self]

/-- Settles O42: each output by whether its formed state changed, each channel by whether its reset is held, and the
flags by their causes. -/
theorem eventsSettle : Obligations.EventsSettle := by
  refine fun s u => ⟨fun sec => ⟨sel_settle_same, fun hne => ?_, fun hs hu hoff => ?_, fun hs hu hon => ?_⟩,
    fun ch hheld => ?_, fun ch hopen => ⟨causes s (formOutputs s u), ?_, causes_iff s (formOutputs s u)⟩, rfl⟩
  · rw [sel_settle_changed hne]
    exact ⟨command_commanded _ _, command_mode _ _, command_readback _ _⟩
  · rw [sel_settle_changed (by simp [hs, hu]), hu, command_on hoff]
    exact ⟨rfl, rfl⟩
  · rw [sel_settle_changed (by simp [hs, hu]), hu, command_off hon]
    exact ⟨rfl, rfl, rfl⟩
  · rw [settle_channels, sel_each, flag_held _ hheld]
  · rw [settle_channels, sel_each, flag_open _ hopen]

end Sys2Proof.Machine
end

section
/-! PROOFS. O43: SET_OUTPUT_MODE (R147, R149). -/

namespace Sys2Proof.Machine

variable {ch : ChannelNo} {a : Args} {s : State} {sec : SectionNo}

theorem modeArg_auto (hmode : argByte a 1 = 0) :
    modeArg (argByte a 1).toNat (argHalf a 2).toNat = some (.auto, 0) := by
  rw [hmode]
  rfl

theorem modeArg_forcedOff (hmode : argByte a 1 = 1) :
    modeArg (argByte a 1).toNat (argHalf a 2).toNat = some (.forcedOff, 0) := by
  rw [hmode]
  rfl

theorem modeArg_bypass (hmode : argByte a 1 = 2) (hlow : 10 ≤ (argHalf a 2).toNat)
    (hhigh : (argHalf a 2).toNat ≤ 1800) : modeArg (argByte a 1).toNat (argHalf a 2).toNat =
      some (.bypass ((argHalf a 2).toNat * 1000), (argHalf a 2).toNat) := by
  simp [modeArg, hmode, hlow, hhigh, Config.second]

theorem modeArg_out (h : 2 < (argByte a 1).toNat ∨
    (argByte a 1 = 2 ∧ ((argHalf a 2).toNat < 10 ∨ 1800 < (argHalf a 2).toNat))) :
    modeArg (argByte a 1).toNat (argHalf a 2).toNat = none := by
  have hout : 2 < (argByte a 1).toNat ∨
      ((argByte a 1).toNat = 2 ∧ ((argHalf a 2).toNat < 10 ∨ 1800 < (argHalf a 2).toNat)) :=
    h.imp_right fun ⟨hmode, hduration⟩ => ⟨by rw [hmode]; rfl, hduration⟩
  rw [modeArg, if_neg (by omega), if_neg (by omega), if_neg (by omega)]

theorem runSetOutputMode_out (hsec : sectionOf (argByte a 0).toNat = some sec)
    (h : modeArg (argByte a 1).toNat (argHalf a 2).toNat = none) :
    runSetOutputMode ch a s = (s, .refuse .badArgument) := by
  simp only [runSetOutputMode, sectionArg, hsec, h]

theorem runSetOutputMode_denied {mode : OutputMode} {applied : Nat} (hsec : sectionOf (argByte a 0).toNat = some sec)
    (hmode : modeArg (argByte a 1).toNat (argHalf a 2).toNat = some (mode, applied)) (hbypass : mode.isBypass = true)
    (hrole : s.role ch ≠ .engineer) : runSetOutputMode ch a s = (s, deniedFor (s.role ch)) := by
  simp only [runSetOutputMode, sectionArg, hsec, hmode, hbypass, bne_iff_ne.2 hrole, Bool.and_self, if_true]

theorem runSetOutputMode_done {mode : OutputMode} {applied : Nat} (hsec : sectionOf (argByte a 0).toNat = some sec)
    (hmode : modeArg (argByte a 1).toNat (argHalf a 2).toNat = some (mode, applied))
    (hrole : mode.isBypass = false ∨ s.role ch = .engineer) :
    runSetOutputMode ch a s =
      (s.setOutput sec { sel s.outputs sec with mode := mode },
        .done ([(sel s.outputs sec).mode.byte, mode.byte,
          byteOf (State.commandFormed (s.setOutput sec { sel s.outputs sec with mode := mode }) sec).toNat] ++
            numBytes applied)) := by
  have hallowed : ¬ (mode.isBypass && s.role ch != .engineer) = true := by
    rcases hrole with h | h <;> simp [h]
  simp only [runSetOutputMode, sectionArg, hsec, hmode, if_neg hallowed]

/-- SET_OUTPUT_MODE accepted: the event is the output's new mode, and the commanded state in the answer the one formed
for it. -/
theorem exec_setOutputMode {mode : OutputMode} {applied : Nat}
    (hp : Passes 4 [.operator, .engineer, .quality] ch a s) (hsec : sectionOf (argByte a 0).toNat = some sec)
    (hmode : modeArg (argByte a 1).toNat (argHalf a 2).toNat = some (mode, applied))
    (hrole : mode.isBypass = false ∨ s.role ch = .engineer) :
    exec (.setOutputMode ch a) s = .next (answered ch .done
      ([(sel s.outputs sec).mode.byte, mode.byte,
        byteOf (State.commandFormed (s.setOutput sec { sel s.outputs sec with mode := mode }) sec).toNat] ++
          numBytes applied)
      (settle s (s.setOutput sec { sel s.outputs sec with mode := mode }))) := by
  have hrole' : mode.isBypass = false ∨ (arrive ch ⟨0x54, a⟩ s).role ch = .engineer := by rwa [role_arrive]
  exact exec_event (r := setOutputModeRequest) rfl rfl rfl hp (runSetOutputMode_done hsec hmode hrole')

/-- The mode given to an output is the one it has. -/
theorem setOutput_mode (s : State) (sec : SectionNo) (o : Output) :
    (sel (s.setOutput sec o).outputs sec).mode = o.mode := by
  rw [setOutput_outputs, sel_upd_same]

/-- Settles O43: the argument checks, the refusal of BYPASS, and the outcome of each mode. -/
theorem setOutputModeRule : Obligations.SetOutputModeRule := by
  refine fun ch a s sec hp hsec => ⟨fun hout => ?_, fun hmode hlow hhigh hrole => ?_,
    fun hmode hlow hhigh hrole => ?_, fun hmode => ?_, fun hmode => ?_⟩
  · exact exec_answers (r := setOutputModeRequest) rfl rfl rfl hp (runSetOutputMode_out hsec (modeArg_out hout))
  · have hrun := runSetOutputMode_denied (s := arrive ch ⟨0x54, a⟩ s) hsec (modeArg_bypass hmode hlow hhigh) rfl
      (by rwa [role_arrive])
    rw [role_arrive] at hrun
    exact exec_answers (r := setOutputModeRequest) rfl rfl rfl hp hrun
  · have hready : State.ready (s.setOutput sec
        { sel s.outputs sec with mode := .bypass ((argHalf a 2).toNat * 1000) }) = true := hp.2.1
    rw [exec_setOutputMode hp hsec (modeArg_bypass hmode hlow hhigh) (.inr hrole),
      commandFormed_of_bypass (setOutput_mode _ _ _), hready, numBytes_toNat]
    rfl
  · rw [exec_setOutputMode hp hsec (modeArg_forcedOff hmode) (.inl rfl),
      commandFormed_of_forcedOff (setOutput_mode _ _ _)]
    rfl
  · rw [exec_setOutputMode hp hsec (modeArg_auto hmode) (.inl rfl), commandFormed_of_auto (setOutput_mode _ _ _)]
    rfl

end Sys2Proof.Machine
end

section
/-! PROOFS. O44: the output stage's own events and the LEDs (R148 to R150, R155, R156, R193, R194). -/

namespace Sys2Proof.Machine

variable {s : State} {sec : SectionNo}

/-! ### BYPASS_EXPIRY (R148, R149) -/

theorem exec_bypassExpiry (sec : SectionNo) (s : State) : exec (.bypassExpiry sec) s = .next
    (if timerDue (sel s.outputs sec).mode.timer then
      settle s (s.setOutput sec { sel s.outputs sec with mode := .auto })
    else s) := rfl

theorem exec_bypassExpiry_due {n : Nat} (h : (sel s.outputs sec).mode = .bypass n) (hn : n ≤ 10) :
    exec (.bypassExpiry sec) s =
      .next (settle s (s.setOutput sec { sel s.outputs sec with mode := .auto })) := by
  rw [exec_bypassExpiry, h]
  exact congrArg _ (if_pos (decide_eq_true hn))

theorem exec_bypassExpiry_early {n : Nat} (h : (sel s.outputs sec).mode = .bypass n) (hn : 10 < n) :
    exec (.bypassExpiry sec) s = .next s := by
  rw [exec_bypassExpiry, h]
  exact congrArg _ (if_neg (by simpa [OutputMode.timer] using hn))

theorem exec_bypassExpiry_otherMode (h : (sel s.outputs sec).mode = .auto ∨ (sel s.outputs sec).mode = .forcedOff) :
    exec (.bypassExpiry sec) s = .next s := by
  rcases h with h | h <;> rw [exec_bypassExpiry, h] <;> rfl

/-! ### READBACK_CHANGE and OUTPUT_FAULT_DELAY_EXPIRY (R150) -/

theorem read_on (o : Output) : o.read .on = { o with readback := true, fault := false } := by
  simp [Output.read, Output.reform, Output.faultFormed]

theorem read_off (o : Output) : o.read .off =
    { o with readback := false, fault := o.commanded && decide (o.faultDelay = none) } := by
  have hover : o.faultDelay.isNone = decide (o.faultDelay = none) := by cases o.faultDelay <;> rfl
  simp [Output.read, Output.reform, Output.faultFormed, hover]

theorem exec_readbackChange (h : s.phase ≠ .off) (sec : SectionNo) (level : TerminalLevel) :
    exec (.readbackChange sec level) s =
      .next (settle s (s.setOutput sec ((sel s.outputs sec).read level))) := congrArg _ (if_neg h)

theorem exec_readbackChange_off (h : s.phase = .off) (sec : SectionNo) (level : TerminalLevel) :
    exec (.readbackChange sec level) s = .next s := congrArg _ (if_pos h)

/-- An output replaced by itself. -/
theorem setOutput_sel (s : State) (sec : SectionNo) : s.setOutput sec (sel s.outputs sec) = s := by
  rw [State.setOutput, upd_sel]

theorem reform_delayOver (o : Output) : Output.reform { o with faultDelay := none } =
    { o with faultDelay := none, fault := o.commanded && !o.readback } := by
  simp [Output.reform, Output.faultFormed]

/-! ### Trips (R193) -/

theorem driven_iff : s.driven sec = true ↔
    (sel s.outputs sec).commanded = true ∧ s.fieldPresent = true ∧ (sel s.outputs sec).tripped = false ∧
      s.phase ≠ .off := by
  simp only [State.driven, Bool.and_eq_true, Bool.not_eq_true', bne_iff_ne, and_assoc]

/-- Settles O44: each event by its condition, the readback and the fault by `read_on`, `read_off` and
`reform_delayOver`, and the LEDs by the phase. -/
theorem outputEvents : Obligations.OutputEvents := by
  intro s sec
  refine ⟨fun n hmode => ⟨exec_bypassExpiry_due hmode, exec_bypassExpiry_early hmode⟩, exec_bypassExpiry_otherMode,
    fun hon => ⟨?_, ?_, ?_⟩, fun hover => ?_, fun hrunning => congrArg _ (if_neg hrunning), rfl, rfl,
    fun hc hf ht hp => congrArg _ (if_pos (driven_iff.2 ⟨hc, hf, ht, hp⟩)),
    fun hopen => congrArg _ (if_neg fun hdriven => ?_), fun hc ht => ⟨?_, ?_⟩, fun hidle within => ?_,
    fun hoff => exec_readbackChange_off hoff sec, rfl, rfl, fun hp => ?_, fun hp => ?_,
    fun hp => ⟨fun hlost => ?_, fun hlink hd => ?_, fun hlink hd => ?_⟩⟩
  · rw [exec_readbackChange hon, read_on]
  · rw [exec_readbackChange hon, read_off]
  · rw [exec_readbackChange hon]
    exact congrArg _ ((congrArg _ (setOutput_sel s sec)).trans (settle_self s))
  · rw [← reform_delayOver]
    exact congrArg _ (if_pos hover)
  · obtain ⟨hc, hf, ht, hp⟩ := driven_iff.1 hdriven
    simp [hc, hf, ht, hp] at hopen
  · exact congrArg _ (if_pos (by simp [hc, ht]))
  · exact congrArg _ (if_neg (by simp))
  · exact congrArg _ (if_neg (by rcases hidle with h | h <;> simp [h]))
  · rw [moduleLed, hp]
  · rcases hp with hp | hp <;> rw [moduleLed, hp]
  · simp only [moduleLed, hp, if_pos hlost]
  · simp only [moduleLed, hp, if_neg hlink, if_pos hd]
  · simp only [moduleLed, hp, if_neg hlink, hd, Bool.false_eq_true, if_false]

end Sys2Proof.Machine
end

section
/-! PROOFS. O52: LINK_LOSS (R153, R180). -/

namespace Sys2Proof.Machine

theorem loseLink_channel (c : Channel) : c.loseLink =
    { c with
      handshake := match c.handshake with
        | .idle => .idle | .working _ req => .working false req | .answered => .idle
      armed := match c.handshake with
        | .idle => !c.resetHeld | .working _ _ => false | .answered => !c.resetHeld
      answer := ⟨0, Vector.replicate 10 0⟩
      flags := ⟨false, false, false, false, false⟩, mask := ⟨false, false, false, false, false⟩
      role := .noRole, draft := none, cursor := .noCursor } := by
  obtain ⟨handshake, _⟩ := c
  cases handshake <;> rfl

theorem endBypass_eq (o : Output) : o.endBypass =
    match o.mode with | .auto => o | .forcedOff => o | .bypass _ => { o with mode := .auto } := by
  obtain ⟨mode, _⟩ := o
  cases mode <;> rfl

/-- Settles O52: the onset of link loss channel by channel and output by output, and when the timer is due. -/
theorem linkLossRule : Obligations.LinkLossRule := by
  refine ⟨fun s u ms hexchanging htimer hdue hu => ?_, fun s hnot => congrArg _ (if_neg fun hloss => ?_)⟩
  · have hchannels : each s.channels (fun _ c => c.loseLink) = u.channels := by
      rw [hu]
      refine bank_ext fun ch => ?_
      simp only [sel_each]
      exact loseLink_channel _
    have houtputs : each s.outputs (fun _ o => o.endBypass) = u.outputs := by
      rw [hu]
      refine bank_ext fun sec => ?_
      simp only [sel_each]
      exact endBypass_eq _
    have hlose : u = loseLink s := by rw [loseLink, hchannels, houtputs, hu]
    rw [hlose]
    exact congrArg _ (if_pos (by simp [hexchanging, htimer, hdue]))
  · obtain ⟨hexchanging, hdue⟩ := Bool.and_eq_true_iff.1 hloss
    rcases hnot with h | h | ⟨ms, h, hlate⟩
    · rw [h] at hexchanging; cases hexchanging
    · rw [h] at hdue; cases hdue
    · rw [h, timerDue_some, decide_eq_true_eq] at hdue; omega

end Sys2Proof.Machine
end

section
/-! SUPPORT. What leaves every output's record as it is: all requests but SET_OUTPUT_MODE, and the completion of a
proposal item up to its event's end. -/

namespace Sys2Proof.Machine

/-! ### The section controller and the judgement -/

theorem endChangeover_outputs (sec : SectionNo) (s : State) : (endChangeover sec s).outputs = s.outputs := by
  rw [endChangeover_eq, recompute_outputs]

theorem adoptionNotice_outputs (sec : SectionNo) (s : State) : (adoptionNotice sec s).outputs = s.outputs := by
  unfold adoptionNotice
  split
  · exact endChangeover_outputs sec s
  · rfl

theorem beginChangeover_outputs (sec : SectionNo) (target : FormatNo) (s : State) :
    (beginChangeover sec target s).outputs = s.outputs := by
  rw [beginChangeover_eq]
  split
  · rw [endAtOnce, enqueue_outputs, setSectionRec_outputs]
  · rw [markPending_outputs, State.changingSection, setSectionRec_outputs]

theorem judgeDigest_outputs (st : StationNo) (f : FormatNo) (d : DigestPair) (r : StationRec) (s : State) :
    (judgeDigest st f d r s).1.outputs = s.outputs := by
  simp only [judgeDigest]
  split
  · rfl
  · split
    · simp only [reportAdoption]
      split
      · dsimp only
        rw [adoptionNotice_outputs, enqueue_outputs, setStation_outputs]
      · rfl
    · rfl

theorem applyCompletion_outputs (all : List SlotResult) (s : State) : (applyCompletion all s).outputs = s.outputs := by
  rw [applyCompletion_eq]

/-! ### The requests -/

variable (ch : ChannelNo) (a : Args) (s : State)

theorem runModuleInfo_outputs : (runModuleInfo a s).1.outputs = s.outputs := by
  simp only [runModuleInfo]; split <;> rfl

theorem runSetEventMask_outputs : (runSetEventMask ch a s).1.outputs = s.outputs := by
  simp only [runSetEventMask]; split <;> rfl

theorem runSignOn_outputs : (runSignOn ch a s).1.outputs = s.outputs := by
  simp only [runSignOn]; repeat' split
  all_goals rfl

theorem runSetRoleCode_outputs : (runSetRoleCode a s).1.outputs = s.outputs := by
  simp only [runSetRoleCode]
  split
  · exact enqueue_outputs _ _
  · rfl

theorem runOpenRelease_outputs : (runOpenRelease a s).1.outputs = s.outputs := by
  simp only [runOpenRelease]; split <;> rfl

theorem runSetLifetime_outputs : (runSetLifetime a s).1.outputs = s.outputs := by
  simp only [runSetLifetime]
  split
  · rfl
  · exact enqueue_outputs _ _

theorem runListEntries_outputs : (runListEntries ch a s).1.outputs = s.outputs := by
  simp only [runListEntries]; repeat' split
  all_goals rfl

theorem runNextEntry_outputs : (runNextEntry ch s).1.outputs = s.outputs := by
  simp only [runNextEntry]; repeat' split
  all_goals rfl

theorem addChange_outputs (c : Change) : (addChange ch c s).1.outputs = s.outputs := by
  simp only [addChange]; repeat' split
  all_goals rfl

theorem amend_outputs (f : Change → Option Change) : (amend ch f s).1.outputs = s.outputs := by
  simp only [amend]; repeat' split
  all_goals rfl

theorem runDraftSet_outputs : (runDraftSet ch a s).1.outputs = s.outputs := by
  simp only [runDraftSet]
  split
  · rfl
  · exact addChange_outputs _ _ _

theorem runDraftCreate_outputs : (runDraftCreate ch a s).1.outputs = s.outputs := by
  simp only [runDraftCreate]
  split
  · exact addChange_outputs _ _ _
  · rfl

theorem runDraftRetire_outputs : (runDraftRetire ch a s).1.outputs = s.outputs := by
  simp only [runDraftRetire]
  split
  · rfl
  · exact addChange_outputs _ _ _

theorem runDraftBounds_outputs : (runDraftBounds ch a s).1.outputs = s.outputs := by
  simp only [runDraftBounds]
  split
  · exact amend_outputs _ _ _
  · rfl

theorem runDraftPartner_outputs : (runDraftPartner ch a s).1.outputs = s.outputs := by
  simp only [runDraftPartner]
  split
  · rfl
  · exact amend_outputs _ _ _

theorem runDraftSubmit_outputs : (runDraftSubmit ch s).1.outputs = s.outputs := by
  simp only [runDraftSubmit]; repeat' split
  all_goals rfl

theorem runApprove_outputs : (runApprove ch a s).1.outputs = s.outputs := by
  simp only [runApprove]
  split
  · rfl
  · split
    · rfl
    · split
      · rfl
      · exact enqueue_outputs _ _

theorem runReject_outputs : (runReject ch a s).1.outputs = s.outputs := by
  simp only [runReject]; repeat' split
  all_goals rfl

theorem runWithdraw_outputs : (runWithdraw ch a s).1.outputs = s.outputs := by
  simp only [runWithdraw]; repeat' split
  all_goals rfl

theorem runListProposals_outputs : (runListProposals ch s).1.outputs = s.outputs := by
  simp only [runListProposals]; split <;> rfl

theorem runNextProposal_outputs : (runNextProposal ch s).1.outputs = s.outputs := by
  simp only [runNextProposal]; repeat' split
  all_goals rfl

theorem runEnroll_outputs : (runEnroll a s).1.outputs = s.outputs := by
  simp only [runEnroll]
  repeat' split
  all_goals simp only [recompute_outputs, enqueue_outputs, setStation_outputs]

theorem runUnenroll_outputs : (runUnenroll a s).1.outputs = s.outputs := by
  simp only [runUnenroll]
  repeat' split
  all_goals simp only [recompute_outputs, enqueue_outputs, setStation_outputs]

theorem runReportValue_outputs : (runReportValue a s).1.outputs = s.outputs := by
  simp only [runReportValue]; repeat' split
  all_goals rfl

theorem runReportDigest_outputs : (runReportDigest a s).1.outputs = s.outputs := by
  simp only [runReportDigest]
  split
  · split
    · rfl
    · split
      · rfl
      · split
        · rfl
        · exact judgeDigest_outputs _ _ _ _ s
  · rfl

theorem runHold_outputs : (runHold ch a s).1.outputs = s.outputs := by
  simp only [runHold]; repeat' split
  all_goals rfl

theorem runReleaseHold_outputs : (runReleaseHold ch a s).1.outputs = s.outputs := by
  simp only [runReleaseHold]; repeat' split
  all_goals rfl

theorem runChangeover_outputs : (runChangeover a s).1.outputs = s.outputs := by
  simp only [runChangeover]
  repeat' split
  all_goals simp only [beginChangeover_outputs]

theorem runAbortChangeover_outputs : (runAbortChangeover a s).1.outputs = s.outputs := by
  simp only [runAbortChangeover]
  repeat' split
  all_goals simp only [endChangeover_outputs]

theorem runSetSection_outputs : (runSetSection a s).1.outputs = s.outputs := by
  simp only [runSetSection]
  repeat' split
  all_goals simp only [enqueue_outputs, setSectionRec_outputs]

/-- Every request but SET_OUTPUT_MODE leaves the outputs to the end of its event. -/
theorem requestOf_outputs {code : Nat} {r : RequestSpec} (h : requestOf code = some r) :
    r = setOutputModeRequest ∨ (r.run ch a s).1.outputs = s.outputs := by
  unfold requestOf at h
  split at h <;> cases h
  · exact .inr (runModuleInfo_outputs a s)
  · exact .inr rfl
  · exact .inr (runSetEventMask_outputs ch a s)
  · exact .inr (runSignOn_outputs ch a s)
  · exact .inr rfl
  · exact .inr (runSetRoleCode_outputs a s)
  · exact .inr (runOpenRelease_outputs a s)
  · exact .inr rfl
  · exact .inr (runSetLifetime_outputs a s)
  · exact .inr rfl
  · exact .inr rfl
  · exact .inr rfl
  · exact .inr rfl
  · exact .inr (runListEntries_outputs ch a s)
  · exact .inr (runNextEntry_outputs ch s)
  · exact .inr rfl
  · exact .inr rfl
  · exact .inr (runDraftSet_outputs ch a s)
  · exact .inr (runDraftCreate_outputs ch a s)
  · exact .inr (runDraftRetire_outputs ch a s)
  · exact .inr (runDraftBounds_outputs ch a s)
  · exact .inr (amend_outputs ch s _)
  · exact .inr (runDraftPartner_outputs ch a s)
  · exact .inr (runDraftSubmit_outputs ch s)
  · exact .inr rfl
  · exact .inr (runApprove_outputs ch a s)
  · exact .inr (runReject_outputs ch a s)
  · exact .inr (runWithdraw_outputs ch a s)
  · exact .inr (runListProposals_outputs ch s)
  · exact .inr (runNextProposal_outputs ch s)
  · exact .inr rfl
  · exact .inr (runEnroll_outputs a s)
  · exact .inr (runUnenroll_outputs a s)
  · exact .inr (runReportValue_outputs a s)
  · exact .inr (runReportDigest_outputs a s)
  · exact .inr (runHold_outputs ch a s)
  · exact .inr (runReleaseHold_outputs ch a s)
  · exact .inr rfl
  · exact .inr rfl
  · exact .inr (runChangeover_outputs a s)
  · exact .inr (runAbortChangeover_outputs a s)
  · exact .inr (runSetSection_outputs a s)
  · exact .inr rfl
  · exact .inl rfl

end Sys2Proof.Machine
end

section
/-! PROOFS. O56: every step keeps each output as its mode forms it, and OUTPUT_FAULT as R150 forms it. An event need
only leave the commanded states to its end, where the outputs are formed again. -/

namespace Sys2Proof.Machine

variable {s t : State} {sec : SectionNo} {o : Output}

/-! ### What an event may do to the outputs before its end -/

/-- From `s` to `t` no output is commanded, and each OUTPUT_FAULT is as R150 forms it. -/
def OutputsUncommanded (s t : State) : Prop :=
  ∀ sec, (sel t.outputs sec).commanded = (sel s.outputs sec).commanded ∧
    (sel t.outputs sec).fault = (sel t.outputs sec).faultFormed

theorem OutputLaw.uncommanded (h : OutputLaw s) (ht : t.outputs = s.outputs) : OutputsUncommanded s t := by
  intro sec
  rw [ht]
  exact ⟨rfl, (h sec).2⟩

/-- One output with another mode, readback or delay, and its fault formed for them. -/
theorem OutputLaw.uncommanded_setOutput (h : OutputLaw s) (hc : o.commanded = (sel s.outputs sec).commanded)
    (hf : o.fault = o.faultFormed) : OutputsUncommanded s (s.setOutput sec o) := by
  intro x
  rw [setOutput_outputs, sel_upd]
  split
  · next hx => exact hx ▸ ⟨hc, hf⟩
  · exact ⟨rfl, (h x).2⟩

/-! ### The end of an event -/

/-- Once the outputs are formed again, the law holds of the state after the event. -/
theorem OutputLaw.formOutputs (h : OutputLaw s) (ht : OutputsUncommanded s t) : OutputLaw (formOutputs s t) := by
  intro sec
  have hmode : (sel (Machine.formOutputs s t).outputs sec).mode = (sel t.outputs sec).mode := by
    rw [formOutputs_sel]
    split
    · rfl
    · exact command_mode _ _
  have hformed : (Machine.formOutputs s t).commandFormed sec = t.commandFormed sec :=
    commandFormed_congr sec rfl rfl rfl hmode
  rw [hformed, formOutputs_sel]
  obtain ⟨hc, hf⟩ := ht sec
  split
  · next hsame => exact ⟨hc.trans ((h sec).1.trans hsame), hf⟩
  · exact ⟨command_commanded _ _, command_faultFormed _ _ hf⟩

/-- What the law speaks of is the phase, the records of stations and sections, and the outputs. -/
theorem OutputLaw.frame (h : OutputLaw s) (hr : RecordsFrame s t) (hp : t.phase = s.phase)
    (ho : t.outputs = s.outputs) : OutputLaw t := by
  intro sec
  rw [commandFormed_congr sec hp (by rw [hr.sections]) hr.stations (by rw [ho]), ho]
  exact h sec

theorem OutputLaw.settle (h : OutputLaw s) (ht : OutputsUncommanded s t) : OutputLaw (settle s t) :=
  (h.formOutputs ht).frame ⟨rfl, rfl⟩ rfl rfl

theorem OutputLaw.settle_quiet (h : OutputLaw s) (ht : t.outputs = s.outputs) : OutputLaw (Machine.settle s t) :=
  h.settle (h.uncommanded ht)

/-- Before READY the law is that every output is OFF without a fault. -/
theorem OutputLaw.unready (hp : t.phase ≠ .running)
    (ho : ∀ sec, (sel t.outputs sec).commanded = false ∧ (sel t.outputs sec).fault = false) : OutputLaw t := by
  intro sec
  obtain ⟨hc, hf⟩ := ho sec
  rw [commandFormed_unready hp, Output.faultFormed, hc]
  exact ⟨rfl, hf⟩

/-- A module that is reset, held or without supply has fresh outputs (R154, R194). -/
theorem OutputLaw.reset {levels : Bank 4 Bool} (hp : t.phase ≠ .running)
    (ho : t.outputs = each levels fun _ level => Output.fresh level) : OutputLaw t := by
  refine .unready hp fun sec => ?_
  rw [ho, sel_each]
  exact ⟨rfl, rfl⟩

/-- One output with its trip set or cleared. -/
theorem OutputLaw.setTrip (h : OutputLaw s) (sec : SectionNo) (b : Bool) :
    OutputLaw (s.setOutput sec { sel s.outputs sec with tripped := b }) := by
  intro x
  have hsel : ∃ trip, sel (s.setOutput sec { sel s.outputs sec with tripped := b }).outputs x =
      { sel s.outputs x with tripped := trip } := by
    rw [setOutput_outputs, sel_upd]
    split
    · next hx => exact hx ▸ ⟨b, rfl⟩
    · exact ⟨_, rfl⟩
  obtain ⟨trip, hsel⟩ := hsel
  have hformed : State.commandFormed (s.setOutput sec { sel s.outputs sec with tripped := b }) x = s.commandFormed x :=
    commandFormed_congr x rfl rfl rfl (by rw [hsel])
  rw [hformed, hsel]
  exact h x

/-! ### Requests and images -/

theorem runSetOutputMode_uncommanded (h : OutputLaw s) (ch : ChannelNo) (a : Args) :
    OutputsUncommanded s (runSetOutputMode ch a s).1 := by
  simp only [runSetOutputMode]
  split
  · split
    · exact h.uncommanded rfl
    · exact h.uncommanded_setOutput rfl (h _).2
  · exact h.uncommanded rfl

theorem OutputLaw.reply (h : OutputLaw s) (ch : ChannelNo) (r : Reply) : OutputLaw (reply ch r s) := by
  cases r with
  | now code result => exact h.frame ⟨rfl, rfl⟩ rfl rfl
  | later => exact h

theorem OutputLaw.run (h : OutputLaw s) {code : Nat} {r : RequestSpec} (hr : requestOf code = some r)
    (ch : ChannelNo) (a : Args) : OutputsUncommanded s (r.run ch a s).1 := by
  rcases requestOf_outputs ch a s hr with rfl | ho
  · exact runSetOutputMode_uncommanded h ch a
  · exact h.uncommanded ho

theorem OutputLaw.takeCode (h : OutputLaw s) (ch : ChannelNo) (code : Byte) (a : Args) :
    OutputLaw (takeCode ch code a s) := by
  have harrive : ∀ req, OutputLaw (arrive ch req s) := fun req => h.frame ⟨rfl, rfl⟩ rfl rfl
  unfold Machine.takeCode
  split
  · next r hr =>
    unfold takeRequest
    split
    · unfold handOn
      split
      · exact (harrive _).reply _ _
      · have hrun := (harrive ⟨r.code, a⟩).run hr ch a
        exact ((harrive _).settle hrun).reply _ _
    · exact h
  · unfold takeUnlisted
    split
    · exact (harrive _).reply _ _
    · exact h

theorem OutputLaw.takeControl (h : OutputLaw s) (image : OutputImage) (ch : ChannelNo) :
    OutputLaw (takeControl image s ch) := by
  simp only [Machine.takeControl]
  split
  · exact h.frame ⟨rfl, rfl⟩ rfl rfl
  · split
    · exact h.frame ⟨rfl, rfl⟩ rfl rfl
    · split
      · exact h.takeCode _ _ _
      · exact h.frame ⟨rfl, rfl⟩ rfl rfl

theorem OutputLaw.takeControls (h : OutputLaw s) (image : OutputImage) (l : List ChannelNo) :
    OutputLaw (l.foldl (Machine.takeControl image) s) := by
  induction l generalizing s with
  | nil => exact h
  | cons ch l ih => exact ih (h.takeControl image ch)

/-! ### The events -/

/-- Link loss returns outputs to AUTO and leaves what they are commanded to the end of its event (R153). -/
theorem loseLink_uncommanded (h : OutputLaw s) : OutputsUncommanded s (loseLink s) := by
  intro sec
  have hout : sel (loseLink s).outputs sec = (sel s.outputs sec).endBypass := by
    simp only [loseLink, sel_each]
  rw [hout, Output.endBypass]
  split <;> exact ⟨rfl, (h sec).2⟩

theorem OutputLaw.takeItem (h : OutputLaw s) : OutputLaw (takeItem s) :=
  h.frame (.takeItem s) (takeItem_phase s) (takeItem_outputs s)

theorem OutputLaw.itemCompletion {c : SlotOutcome} (h : OutputLaw s)
    (ht : exec (.proposalItemCompletion c) s = .next t) : OutputLaw t := by
  rcases execProposalItemCompletion_cases ht with rfl | ⟨ch, number, plans, results, p, -, -, -, rfl⟩
  · exact h
  · have hwritten : OutputLaw { s with array := (writeSlotPlan p c s.array).1 } := h.frame ⟨rfl, rfl⟩ rfl rfl
    have hsettled := hwritten.settle_quiet
      (t := { removeProposal number (applyCompletion (plans.zip (results ++ [(writeSlotPlan p c s.array).2]))
        { s with array := (writeSlotPlan p c s.array).1 }) with writer := none })
      (applyCompletion_outputs _ _)
    exact (hsettled.reply ch (.now _ _)).takeItem

theorem OutputLaw.openModule (h : OutputLaw s) : OutputLaw (openModule s) := h.formOutputs (h.uncommanded rfl)

theorem OutputLaw.flagFaults (h : OutputLaw s) : OutputLaw (flagFaults s) := by
  unfold Machine.flagFaults
  split
  · exact h
  · exact h.frame ⟨rfl, rfl⟩ rfl rfl

/-- The opening of the module forms the outputs, which are OFF until then (R92, R154). -/
theorem OutputLaw.scanEnd (h : OutputLaw s) (w : ScanWrites) (hphase : s.phase = .scanning) :
    OutputLaw (Machine.flagFaults (Machine.openModule (recomputeAll (loadArray w s)))) := by
  have hp : (recomputeAll (loadArray w s)).phase ≠ .running := by
    rw [(recomputeAll_frame _).phase]
    exact fun hrunning => Phase.noConfusion (hphase.symm.trans hrunning)
  have ho : (recomputeAll (loadArray w s)).outputs = s.outputs := by rw [recomputeAll_outputs, loadArray_outputs]
  have hscanned : OutputLaw (recomputeAll (loadArray w s)) := by
    intro sec
    have hoff := (h sec).1
    rw [commandFormed_unready (by rw [hphase]; exact Phase.noConfusion)] at hoff
    rw [commandFormed_unready hp, ho]
    exact ⟨hoff, (h sec).2⟩
  exact hscanned.openModule.flagFaults

theorem OutputLaw.readbackChange {level : TerminalLevel} (h : OutputLaw s)
    (ht : exec (.readbackChange sec level) s = .next t) : OutputLaw t := by
  cases ht
  split
  · exact h
  · refine h.settle ?_
    cases level with
    | on => exact h.uncommanded_setOutput rfl rfl
    | off => exact h.uncommanded_setOutput rfl rfl
    | between => exact h.uncommanded_setOutput rfl (h sec).2

/-! ### One step -/

/-- An event that occurs on a condition. -/
theorem OutputLaw.event {b : Bool} (h : OutputLaw s) (ht : OutputLaw t) : OutputLaw (if b then t else s) := by
  cases b
  · exact h
  · exact ht

theorem OutputLaw.exec {c : Instr} (h : OutputLaw s) (ht : exec c s = .next t) : OutputLaw t := by
  cases hreq : requestParts c with
  | some x =>
    rw [exec_request hreq] at ht
    cases ht
    exact h.takeCode _ _ _
  | none =>
    have hchannel : ∀ ch f, OutputLaw (s.onChannel ch f) := fun ch f => h.frame ⟨rfl, rfl⟩ rfl rfl
    cases c <;> simp only [requestParts, reduceCtorEq] at hreq
    case imageExchange image =>
      cases ht
      have hbegun : OutputLaw (beginExchange s) := h.frame ⟨rfl, rfl⟩ rfl rfl
      exact h.event (hbegun.takeControls image _)
    case answerAcknowledge ch => cases ht; exact h.event (hchannel ch _)
    case requestAbandonment ch => cases ht; exact h.event (hchannel ch _)
    case channelReset ch => cases ht; exact h.event (hchannel ch _)
    case channelResetEnd ch req => cases ht; exact h.event (hchannel ch _)
    case lockoutExpiry ch => cases ht; exact h.event (hchannel ch _)
    case linkLoss => cases ht; exact h.event (h.settle (loseLink_uncommanded h))
    case proposalExpiry n =>
      cases ht
      split
      · exact h
      · exact h.event (h.settle_quiet rfl)
    case windowExpiry st => cases ht; exact h.event (h.settle_quiet rfl)
    case deadlineExpiry x => cases ht; exact h.event (h.settle_quiet (endChangeover_outputs x s))
    case bypassExpiry x => cases ht; exact h.event (h.settle (h.uncommanded_setOutput rfl (h x).2))
    case releaseExpiry => cases ht; exact h.event (h.settle_quiet rfl)
    case readbackChange x level => exact h.readbackChange ht
    case outputFaultDelayExpiry x =>
      cases ht
      split
      · exact h.settle (h.uncommanded_setOutput rfl rfl)
      · exact h
    case fieldSupplyLoss => cases ht; exact h.frame ⟨rfl, rfl⟩ rfl rfl
    case fieldSupplyReturn => cases ht; exact h.frame ⟨rfl, rfl⟩ rfl rfl
    case outputTrip x => cases ht; exact h.event (h.setTrip x true)
    case tripRetry x within => cases ht; exact h.event (h.setTrip x false)
    case recordWriteCompletion o =>
      rcases execRecordWriteCompletion_cases ht with rfl | ⟨j, -, rfl⟩
      · exact h
      · exact (h.settle_quiet (t := endRecord o j s) rfl).takeItem
    case slotWriteCompletion o =>
      rcases execSlotWriteCompletion_cases ht with rfl | ⟨_, _, _, _, _, -, -, rfl⟩
      · exact h
      · exact h.frame ⟨rfl, rfl⟩ rfl rfl
    case proposalItemCompletion o => exact h.itemCompletion ht
    case powerOn i l => cases ht; split <;> exact .reset Phase.noConfusion rfl
    case busReset i l =>
      cases ht
      split
      · exact h.frame ⟨rfl, rfl⟩ rfl rfl
      · exact .reset Phase.noConfusion rfl
    case busResetLineAsserted i =>
      cases ht
      split
      · exact h.frame ⟨rfl, rfl⟩ rfl rfl
      · exact .reset Phase.noConfusion rfl
    case logicSupplyLoss i =>
      cases ht
      refine .unready Phase.noConfusion fun sec => ?_
      have hfresh : sel State.reset.outputs sec = .fresh false := sel_replicate _ sec
      exact hfresh ▸ ⟨rfl, rfl⟩
    case startUpScanEnd w =>
      rcases execStartUpScanEnd_eq ht with ht | ⟨hphase, ht⟩ <;> rw [ht]
      · exact h
      · exact h.scanEnd w hphase

/-! ### One millisecond -/

theorem tick_derivedState (r : StationRec) : derivedState r.tick = derivedState r := rfl

theorem tick_steady (state : SectionState) : (state.tick == .steady) = (state == .steady) := by
  cases state <;> rfl

/-- A millisecond changes no condition by which the outputs are formed. -/
theorem tick_commandFormed (s : State) (sec : SectionNo) : s.tick.commandFormed sec = s.commandFormed sec := by
  have hstation : ∀ st, sel s.tick.stations st = (sel s.stations st).tick := fun st => sel_each _ _ _
  have hsection : (sel s.tick.sections sec).state = (sel s.sections sec).state.tick := by
    simp only [State.tick, sel_each]
  have hmode : (sel s.tick.outputs sec).mode = (sel s.outputs sec).mode.tick := by
    simp only [State.tick, sel_each]
  have henrolled : s.tick.enrolledIn sec = s.enrolledIn sec := by
    simp only [State.enrolledIn, hstation, StationRec.tick]
  have hready : s.tick.ready = s.ready := rfl
  have hauto : s.tick.autoCondition sec = s.autoCondition sec := by
    simp only [State.autoCondition, hready, hsection, tick_steady, henrolled, hstation, tick_derivedState]
  rw [State.commandFormed, State.commandFormed, hmode, hauto, hready]
  cases (sel s.outputs sec).mode <;> rfl

theorem OutputLaw.tick (h : OutputLaw s) : OutputLaw s.tick := by
  intro sec
  have hout : sel s.tick.outputs sec = { sel s.outputs sec with
      mode := (sel s.outputs sec).mode.tick, faultDelay := timerTick (sel s.outputs sec).faultDelay } :=
    sel_each _ _ _
  have hfault : (sel s.tick.outputs sec).faultFormed = (sel s.outputs sec).faultFormed := by
    rw [hout, Output.faultFormed, Output.faultFormed, timerTick, Option.isNone_map]
  rw [tick_commandFormed, hfault, hout]
  exact h sec

/-- Settles O56: every command keeps the law, by what it does to the outputs before its event ends, and so does a
millisecond. -/
theorem stepKeepsOutputLaw : Obligations.StepKeepsOutputLaw := by
  intro s t h hstep
  rcases step_cases hstep with ⟨c, rest, -, hexec⟩ | rfl
  · have hrest : OutputLaw { s with pending := rest } := h.frame ⟨rfl, rfl⟩ rfl rfl
    exact hrest.exec hexec
  · exact h.tick

end Sys2Proof.Machine
end

section
/-! PROOFS. O45 and O46: signing on and off, the comparison of codes, and the lockout (R158, R161 to R164). -/

namespace Sys2Proof.Machine

variable {ch : ChannelNo} {a : Args} {s t : State} {code : AnswerCode} {result : List Byte} {role : Role}
  {f : Channel → Channel}

/-! ### Changes of one channel -/

/-- A change of the channel that leaves the handshake's own fields does not meet the arrival. -/
theorem onChannel_arrive (req : Request) (s : State)
    (h : ∀ c : Channel, f { c with handshake := .working true req, armed := false, answer := .zero } =
      { f c with handshake := .working true req, armed := false, answer := .zero }) :
    (arrive ch req s).onChannel ch f = arrive ch req (s.onChannel ch f) := by
  simp only [arrive, onChannel_onChannel, h]

/-- The arrival at the channel it takes place on. -/
theorem sel_arrive_channel (ch : ChannelNo) (req : Request) (s : State) : sel (arrive ch req s).channels ch =
    { sel s.channels ch with handshake := .working true req, armed := false, answer := .zero } :=
  sel_upd_same _ _ _

/-! ### The comparison and the count of wrong codes (R158, R162) -/

/-- A role's set code is compared; UNSET, QUALITY alone is open to 000000. -/
theorem accepts_iff (m : ModuleRecord) (role : Role) (n : Nat) : m.accepts role n = true ↔
    m.code role = some n ∨ (m.code role = none ∧ role = .quality ∧ n = 0) := by
  unfold ModuleRecord.accepts
  cases m.code role with
  | none => simp
  | some k => simpa using eq_comm

/-- Before the fifth, a wrong code is counted and the lockout stays as it is. -/
theorem onChannel_wrongCode_early (h : (sel s.channels ch).wrongCodes < 4) :
    s.onChannel ch Channel.wrongCode = s.onChannel ch fun c => { c with wrongCodes := c.wrongCodes + 1 } := by
  have hcount : (sel s.channels ch).wrongCodes + 1 < Config.wrongCodeLimit := Nat.succ_lt_succ h
  simp only [State.onChannel, Channel.wrongCode, if_pos hcount]

/-- The fifth wrong code starts the 60 s. -/
theorem onChannel_wrongCode_fifth (h : (sel s.channels ch).wrongCodes = 4) :
    s.onChannel ch Channel.wrongCode =
      s.onChannel ch fun c => { c with wrongCodes := 5, lockout := some 60000 } := by
  simp only [State.onChannel, Channel.wrongCode, h]
  rfl

/-! ### SIGN_ON -/

section SignOn

variable (hrole : roleOf (argByte a 0).toNat = some role) (hcode : (argWord a 1).toNat ≤ 999999)

include hrole hcode

theorem runSignOn_locked {ms : Nat} (h : (sel s.channels ch).lockout = some ms) : runSignOn ch a s =
    (s, .now .lockedOut [byteOf (max 1 ((ms + 999) / 1000))]) := by
  simp only [runSignOn, hrole, Config.largestCode, if_neg (Nat.not_lt.2 hcode), h, Option.isSome_some, if_true]
  rfl

theorem runSignOn_bound (h : (sel s.channels ch).lockout = none)
    (haccepts : s.access.accepts role (argWord a 1).toNat = true) : runSignOn ch a s =
    (s.onChannel ch fun c => c.bind role, .done [role.byte, (s.role ch).byte]) := by
  simp only [runSignOn, hrole, Config.largestCode, if_neg (Nat.not_lt.2 hcode), h, Option.isSome_none,
    if_neg Bool.false_ne_true, if_pos haccepts]
  rfl

theorem runSignOn_wrong (h : (sel s.channels ch).lockout = none)
    (haccepts : s.access.accepts role (argWord a 1).toNat = false) : runSignOn ch a s =
    (s.onChannel ch Channel.wrongCode, .now .wrongCode [byteOf ((sel s.channels ch).wrongCodes + 1),
      byteOf (if (sel s.channels ch).wrongCodes + 1 < 5 then 0 else 60)]) := by
  simp only [runSignOn, hrole, Config.largestCode, if_neg (Nat.not_lt.2 hcode), h, Option.isSome_none,
    if_neg Bool.false_ne_true, haccepts]
  rfl

end SignOn

/-- What SIGN_ON reads of its channel and what it sets there are no fields of the handshake. -/
theorem signOn_actsBeside (ch : ChannelNo) (a : Args) : ActsBesideArrival signOnRequest ch a := by
  intro req s
  have hbind : ∀ role, (arrive ch req s).onChannel ch (Channel.bind · role) =
      arrive ch req (s.onChannel ch (Channel.bind · role)) := fun _ => onChannel_arrive req s fun _ => rfl
  have hwrong : (arrive ch req s).onChannel ch Channel.wrongCode = arrive ch req (s.onChannel ch Channel.wrongCode) :=
    onChannel_arrive req s fun _ => rfl
  simp only [State.onChannel, sel_arrive_channel] at hbind hwrong
  simp only [signOnRequest, runSignOn, sel_arrive_channel, arrive_access, hbind, hwrong]
  split
  · rfl
  · split_ifs <;> rfl

theorem exec_signOn (hp : Passes 5 everyRole ch a s) (h : runSignOn ch a s = (t, .now code result)) :
    exec (.signOn ch a) s = .next (answered ch code result (settle s t)) :=
  (signOn_actsBeside ch a).next anyRole_iff hp h

/-! ### LOCKOUT_EXPIRY (R163) -/

theorem exec_lockoutExpiry (ch : ChannelNo) (s : State) : exec (.lockoutExpiry ch) s = .next
    (if timerDue (sel s.channels ch).lockout then
      s.onChannel ch fun c => { c with wrongCodes := 0, lockout := none }
    else s) := rfl

theorem exec_lockoutExpiry_due (h : timerDue (sel s.channels ch).lockout = true) : exec (.lockoutExpiry ch) s =
    .next (s.onChannel ch fun c => { c with wrongCodes := 0, lockout := none }) := by
  rw [exec_lockoutExpiry, if_pos h]

theorem exec_lockoutExpiry_notDue (h : timerDue (sel s.channels ch).lockout = false) :
    exec (.lockoutExpiry ch) s = .next s := by
  rw [exec_lockoutExpiry, if_neg (Bool.eq_false_iff.1 h)]

/-- Settles O45: SIGN_ON by the lockout, the comparison and the count, and the expiry by whether the lockout is due. -/
theorem signOnRules : Obligations.SignOnRules := by
  refine fun ch s => ⟨fun a role hp hrole hcode => ⟨fun ms hms => ?_, fun hnone => ⟨fun haccepts => ?_,
    fun hwrong => ⟨fun hcount => ?_, fun hcount => ?_⟩⟩⟩, accepts_iff s.access, fun ms hms => ⟨fun hdue => ?_,
    fun hearly => ?_⟩, fun hnone => exec_lockoutExpiry_notDue (by rw [hnone, timerDue_none])⟩
  · rw [exec_signOn hp (runSignOn_locked hrole hcode hms), settle_self]
  · rw [exec_signOn hp (runSignOn_bound hrole hcode hnone haccepts), settle_channel]
    rfl
  · rw [exec_signOn hp (runSignOn_wrong hrole hcode hnone hwrong), settle_channel, onChannel_wrongCode_early hcount,
      if_pos (Nat.succ_lt_succ hcount)]
    rfl
  · rw [exec_signOn hp (runSignOn_wrong hrole hcode hnone hwrong), settle_channel, onChannel_wrongCode_fifth hcount,
      hcount]
    rfl
  · exact exec_lockoutExpiry_due (by rw [hms, timerDue_some, decide_eq_true hdue])
  · exact exec_lockoutExpiry_notDue (by rw [hms, timerDue_some, decide_eq_false (Nat.not_le.2 hearly)])

/-! ### SIGN_OFF (R164) -/

theorem signOff_actsBeside (ch : ChannelNo) (a : Args) : ActsBesideArrival signOffRequest ch a := by
  intro req s
  have hoff := onChannel_arrive (ch := ch) (f := fun c => { c with role := .noRole, draft := none }) req s fun _ => rfl
  simp only [signOffRequest, runSignOff, role_arrive, hoff]

/-- Settles O46: SIGN_OFF is a change of its channel alone. -/
theorem signOffRule : Obligations.SignOffRule := by
  intro ch a s hp
  have hexec : exec (.signOff ch a) s = .next (answered ch .done [(s.role ch).byte]
      (settle s (s.onChannel ch fun c => { c with role := .noRole, draft := none }))) :=
    (signOff_actsBeside ch a).next anyRole_iff hp rfl
  rwa [settle_channel] at hexec

end Sys2Proof.Machine
end

section
/-! PROOFS. O47: the fixed-class release opened, closed and expired (R166, R167, R183). -/

namespace Sys2Proof.Machine

variable {ch : ChannelNo} {a : Args} {s : State}

/-- The release set or closed: RELEASE is flagged where its state differs, and no output is formed. -/
theorem settle_setRelease (s : State) (r : Timer) : settle s { s with release := r } =
    State.raise { s with release := r } ⟨false, false, false, decide (s.release.isSome ≠ r.isSome), false⟩ :=
  settle_release_event rfl rfl rfl rfl rfl rfl

theorem settle_openRelease (s : State) (ms : Nat) : settle s { s with release := some ms } =
    State.raise { s with release := some ms } ⟨false, false, false, s.release.isNone, false⟩ := by
  rw [settle_setRelease]
  cases s.release <;> rfl

theorem settle_closeRelease (s : State) : settle s { s with release := none } =
    State.raise { s with release := none } ⟨false, false, false, s.release.isSome, false⟩ := by
  rw [settle_setRelease]
  cases s.release <;> rfl

/-! ### OPEN_RELEASE and CLOSE_RELEASE -/

theorem runOpenRelease_out (h : (argHalf a 0).toNat < 60 ∨ 900 < (argHalf a 0).toNat) (s : State) :
    runOpenRelease a s = (s, .refuse .badArgument) := if_pos h

theorem runOpenRelease_opened (hlow : 60 ≤ (argHalf a 0).toNat) (hhigh : (argHalf a 0).toNat ≤ 900) (s : State) :
    runOpenRelease a s = ({ s with release := some ((argHalf a 0).toNat * 1000) },
      .done ([byteOf s.release.isSome.toNat] ++ halfBytes (argHalf a 0))) := by
  have hin : ¬ ((argHalf a 0).toNat < 60 ∨ 900 < (argHalf a 0).toNat) := by omega
  simp only [runOpenRelease, if_neg hin, numBytes_toNat]
  rfl

/-! ### RELEASE_EXPIRY -/

theorem exec_releaseExpiry (s : State) : exec .releaseExpiry s =
    .next (if timerDue s.release then settle s { s with release := none } else s) := rfl

theorem exec_releaseExpiry_notDue (h : timerDue s.release = false) : exec .releaseExpiry s = .next s := by
  rw [exec_releaseExpiry, if_neg (Bool.eq_false_iff.1 h)]

/-- Settles O47: each request and the expiry by what it does to the release, of which the flag is the only effect. -/
theorem releaseRules : Obligations.ReleaseRules := by
  refine fun s => ⟨fun ch a hp => ⟨fun hout => ?_, fun hlow hhigh => ?_⟩, fun ch a hp => ?_,
    fun ms hms => ⟨fun hdue => ?_, fun hearly => exec_releaseExpiry_notDue ?_⟩,
    fun hclosed => exec_releaseExpiry_notDue ?_⟩
  · exact exec_answers (r := openReleaseRequest) rfl rfl rfl hp (runOpenRelease_out hout _)
  · rw [← settle_openRelease]
    exact exec_event (r := openReleaseRequest) rfl rfl rfl hp (runOpenRelease_opened hlow hhigh _)
  · rw [← settle_closeRelease]
    exact exec_event (r := closeReleaseRequest) rfl rfl rfl hp rfl
  · have hdue' : timerDue s.release = true := by rw [hms, timerDue_some, decide_eq_true hdue]
    rw [exec_releaseExpiry, if_pos hdue', settle_closeRelease, hms]
    rfl
  · rw [hms, timerDue_some, decide_eq_false (Nat.not_le.2 hearly)]
  · rw [hclosed, timerDue_none]

end Sys2Proof.Machine
end

section
/-! PROOFS. O3: the machine right after reset, and the laws of Safety.lean there. -/

namespace Sys2Proof.Machine

theorem storeLaw_reset : StoreLaw State.reset := ⟨rfl, rfl, trivial⟩

theorem digestLaw_reset : DigestLaw State.reset :=
  bank_ext fun st => bank_ext fun i => by simp [State.reset, rebuildDigests, sel, computePair]

/-- An empty table has unique keys, nothing freed, and no body out of order. -/
theorem tableLaw_reset : TableLaw State.reset :=
  ⟨rfl, .nil, freedLaw_nil rfl, by simp [State.reset], Phase.noConfusion⟩

theorem outputLaw_reset : OutputLaw State.reset :=
  .unready Phase.noConfusion fun _ => by simp [State.reset, Output.fresh]

/-- Settles O3: the fields as `State.reset` writes them, and the laws as the module resets establish them. -/
theorem resetState : Obligations.ResetState := by
  obtain ⟨hlist, hidle⟩ := stationsLaw_iff.1 (stationsLaw_of_reset rfl)
  have hblank : Blank State.reset := .of_reset
  obtain ⟨hproposals, hdrafts⟩ := hblank.proposalLaws
  obtain ⟨hwriting, hwork⟩ := hblank.writingLaws storeLaw_reset
  exact ⟨rfl, rfl, rfl, fun ch => sel_replicate _ ch, rfl, rfl, fun sec => by simp [State.reset, Output.fresh],
    rfl, rfl, rfl, rfl, rfl, fun _ => rfl, fun st => sel_replicate _ st, fun sec => sel_replicate _ sec, rfl,
    outputLaw_reset, hlist, hidle, sectionLaw_recordsLaw.delivered, storeLaw_reset, hdrafts, hproposals, .nil,
    digestLaw_reset, tableLaw_reset, hwriting, hwork⟩

end Sys2Proof.Machine
end

section
/-! PROOFS. O4 and O5: every command completes, and the channel interface's checks in their order (R174). -/

namespace Sys2Proof.Machine

variable {ch : ChannelNo} {code : Byte} {a : Args} {s : State}

/-! ### Requests that Table 59 does not list -/

/-- A code that Table 59 does not list runs no request. -/
theorem requestOf_unlisted {n : Nat} (h : requestTable.lookup n = none) : requestOf n = none := by
  unfold requestOf
  split
  case h_45 => rfl
  all_goals exact absurd h (by decide)

theorem takeUnlisted_unseen (h : s.canArrive ch = false) : takeUnlisted ch code a s = s := by
  rw [takeUnlisted, if_neg (Bool.eq_false_iff.1 h)]

/-- A request of an unlisted code is answered, with no owning block to run it. -/
theorem takeUnlisted_answered (h : s.canArrive ch = true) :
    takeUnlisted ch code a s = answered ch (if s.ready then .badRequest else .notReady) [] s := by
  rw [takeUnlisted, if_pos h]
  exact deliver_arrive ch _ _ _ s

/-! ### A request by its code -/

theorem takeCode_unseen (h : s.canArrive ch = false) : takeCode ch code a s = s := by
  unfold takeCode
  split
  · exact takeRequest_unseen h
  · exact takeUnlisted_unseen h

/-- Before READY no code and no argument byte is looked at. -/
theorem takeCode_unready (h : s.canArrive ch = true) (hr : s.ready = false) :
    takeCode ch code a s = answered ch .notReady [] s := by
  unfold takeCode
  split
  · exact takeRequest_notReady h hr
  · rw [takeUnlisted_answered h, hr]; rfl

theorem takeCode_unlisted (h : s.canArrive ch = true) (hr : s.ready = true) (hl : listedRequest code = none) :
    takeCode ch code a s = answered ch .badRequest [] s := by
  rw [takeCode, requestOf_unlisted hl]
  dsimp only
  rw [takeUnlisted_answered h, hr]; rfl

/-! ### The obligations -/

/-- No arm of `exec` answers but with a next state. -/
theorem exec_completes (c : Instr) (s : State) : ∃ t, exec c s = .next t := by
  cases c <;> exact ⟨_, rfl⟩

/-- Settles O4: every arm of `exec` is a next state, and a request is its code taken on its channel. -/
theorem everyCommandCompletes : Obligations.EveryCommandCompletes :=
  ⟨exec_completes, fun _ _ _ _ s hc h => by rw [exec_request hc s, takeCode_unseen h]⟩

/-- Settles O5: a request is its code taken on its channel, and READY, the code, the bytes and the role are looked at in
this order. -/
theorem channelChecks : Obligations.ChannelChecks := by
  intro c ch code a s _ hc harrive
  rw [exec_request hc s]
  refine ⟨fun hr => by rw [takeCode_unready harrive hr], fun hr hl => by rw [takeCode_unlisted harrive hr hl],
    fun used roles hr hl => ?_⟩
  obtain ⟨r, hrun, -, rfl, hroles⟩ := requestOf_listed hl
  rw [takeCode, hrun]
  refine ⟨fun hu => congrArg _ (takeRequest_badRequest harrive hr hu), fun hu hrole =>
    congrArg _ (takeRequest_denied harrive hr hu ?_)⟩
  exact Bool.eq_false_iff.2 (mt (hroles _).1 hrole)

end Sys2Proof.Machine
end

section
/-! PROOFS. O48: MODULE_INFO, READ_EVENTS and SET_EVENT_MASK (R185, R186, R188). -/

namespace Sys2Proof.Machine

variable {ch : ChannelNo} {a : Args} {s : State}

/-! ### MODULE_INFO -/

theorem acknowledged_eq (l : LinkState) : l.acknowledged = if l = .recovered then .present else l := by
  cases l <;> rfl

theorem infoFlags_eq (s : State) : infoFlags s =
    bitsByte [decide (s.startCause = .busReset), s.degraded, s.release.isSome, decide (s.link = .recovered)] := by
  simp only [infoFlags, beq_eq_decide]

theorem infoReply_zero (s : State) : infoReply 0 s = .now .done
    ([infoFlags s] ++ numBytes s.startFaults ++ numBytes s.slots.length ++
      numBytes (s.slots.filter fun e => e.2.body.isNone).length ++ [byteOf s.proposals.length]) := rfl

theorem infoReply_one (s : State) : infoReply 1 s = .now .done
    ([infoFlags s, byteOf s.queue.length, byteOf s.writer.isSome.toNat] ++
      numBytes (s.release.elim 0 fun ms => max 1 ((ms + 999) / 1000))) := by
  rw [← secondsShown_eq]
  rfl

theorem runModuleInfo_out (hpart : 1 < (argByte a 0).toNat) (s : State) :
    runModuleInfo a s = (s, .refuse .badArgument) := if_pos hpart

theorem runModuleInfo_part (hpart : (argByte a 0).toNat ≤ 1) (s : State) :
    runModuleInfo a s = ({ s with link := s.link.acknowledged }, infoReply (argByte a 0).toNat s) :=
  if_neg (Nat.not_lt.2 hpart)

/-- A part that MODULE_INFO has is answered, and a RECOVERED link is PRESENT then; that is no event of Table 51. -/
theorem exec_moduleInfo {result : List Byte} (hp : Passes 1 everyRole ch a s) (hpart : (argByte a 0).toNat ≤ 1)
    (hreply : infoReply (argByte a 0).toNat s = .now .done result) :
    exec (.moduleInfo ch a) s = .next (answered ch .done result
      { s with link := if s.link = .recovered then .present else s.link }) := by
  have hquiet : settle s { s with link := s.link.acknowledged } = { s with link := s.link.acknowledged } :=
    settle_quiet rfl rfl rfl rfl rfl rfl rfl
  rw [← acknowledged_eq, ← hquiet]
  refine exec_event (r := moduleInfoRequest) rfl rfl rfl hp ((runModuleInfo_part hpart _).trans ?_)
  rw [← hreply]
  rfl

/-! ### The event flags and their mask -/

/-- A mask is read back from its byte. -/
theorem ofByte_byte (m : EventSet) : EventSet.ofByte m.byte = some m := by
  obtain ⟨_ | _, _ | _, _ | _, _ | _, _ | _⟩ := m <;> rfl

theorem runSetEventMask_out (hout : 32 ≤ (argByte a 0).toNat) (s : State) :
    runSetEventMask ch a s = (s, .refuse .badArgument) := by
  have hnone : EventSet.ofByte (argByte a 0) = none := if_neg (Nat.not_lt.2 hout)
  simp only [runSetEventMask, hnone]

theorem runSetEventMask_mask {m : EventSet} (hm : m.byte = argByte a 0) (s : State) :
    runSetEventMask ch a s = (s.onChannel ch fun c => { c with mask := m },
      .done [(sel s.channels ch).mask.byte, (sel s.channels ch).flags.byte]) := by
  simp only [runSetEventMask, ← hm, ofByte_byte]

theorem setEventMask_actsBeside {m : EventSet} (hm : m.byte = argByte a 0) :
    ActsBesideArrival setEventMaskRequest ch a := by
  intro req s
  have hmask := onChannel_arrive (ch := ch) (f := fun c => { c with mask := m }) req s fun _ => rfl
  simp only [setEventMaskRequest, runSetEventMask_mask hm, sel_arrive_channel, hmask]

theorem readEvents_actsBeside (ch : ChannelNo) (a : Args) : ActsBesideArrival readEventsRequest ch a := by
  intro req s
  have hflags := onChannel_arrive (ch := ch) (f := fun c => { c with flags := .empty }) req s fun _ => rfl
  simp only [readEventsRequest, runReadEvents, sel_arrive_channel, hflags]

theorem exec_setEventMask {m : EventSet} (hp : Passes 1 everyRole ch a s) (hm : m.byte = argByte a 0) :
    exec (.setEventMask ch a) s = .next (answered ch .done
      [(sel s.channels ch).mask.byte, (sel s.channels ch).flags.byte]
      (s.onChannel ch fun c => { c with mask := m })) := by
  rw [← settle_channel]
  exact (setEventMask_actsBeside hm).next anyRole_iff hp (runSetEventMask_mask hm s)

theorem exec_readEvents (hp : Passes 0 everyRole ch a s) : exec (.readEvents ch a) s = .next (answered ch .done
    [(sel s.channels ch).flags.byte, (sel s.channels ch).mask.byte]
    (s.onChannel ch fun c => { c with flags := ⟨false, false, false, false, false⟩ })) := by
  rw [← settle_channel]
  exact (readEvents_actsBeside ch a).next anyRole_iff hp rfl

/-- Settles O48: each request by what its owning block does, MODULE_INFO part by part. -/
theorem infoAndEvents : Obligations.InfoAndEvents := by
  rintro ch a s _ rfl
  rw [← infoFlags_eq]
  refine ⟨fun hp => ⟨fun h0 => ?_, fun h1 => ?_, fun hout => ?_, fun hout => ?_, fun _ => exec_setEventMask hp⟩,
    exec_readEvents⟩
  · exact exec_moduleInfo hp (by simp [h0]) (by rw [h0]; exact infoReply_zero s)
  · exact exec_moduleInfo hp (by simp [h1]) (by rw [h1]; exact infoReply_one s)
  · exact exec_answers (r := moduleInfoRequest) rfl rfl rfl hp (runModuleInfo_out hout _)
  · exact exec_answers (r := setEventMaskRequest) rfl rfl rfl hp (runSetEventMask_out hout _)

end Sys2Proof.Machine
end

section
/-! SUPPORT. What the handshake's own rows do to a channel's record, and when they are taken (R176 to R179). -/

namespace Sys2Proof.Machine

variable {ch : ChannelNo} {s : State} {c : Channel}

/-! ### What each does to its channel's record -/

theorem onChannel_congr {f g : Channel → Channel} (h : f (sel s.channels ch) = g (sel s.channels ch)) :
    s.onChannel ch f = s.onChannel ch g := congrArg (s.setChannel ch) h

/-- A change that leaves the channel's record leaves the state. -/
theorem onChannel_same {f : Channel → Channel} (h : f (sel s.channels ch) = sel s.channels ch) :
    s.onChannel ch f = s := by
  rw [State.onChannel, h, State.setChannel, upd_sel]

theorem acknowledge_answered (h : c.handshake = .answered) :
    c.acknowledge = { c with handshake := .idle, armed := true } := by
  simp only [Channel.acknowledge, h]

theorem abandon_working {wanted : Bool} {req : Request} (h : c.handshake = .working wanted req) :
    c.abandon = { c with handshake := .working false req } := by
  simp only [Channel.abandon, h]

theorem startReset_held (h : c.resetHeld = true) : c.startReset = c := if_pos h

/-- The onset of a channel reset, with the handshake as it is cut (R178, R179). -/
theorem startReset_open (h : c.resetHeld = false) : c.startReset =
    { c with
      handshake := c.handshake.cut, armed := false, resetHeld := true, answer := ⟨0, Vector.replicate 10 0⟩
      flags := ⟨false, false, false, false, false⟩, mask := ⟨false, false, false, false, false⟩
      role := .noRole, draft := none, cursor := .noCursor } := if_neg (Bool.eq_false_iff.1 h)

theorem cut_working {wanted : Bool} {req : Request} (h : c.handshake = .working wanted req) :
    c.handshake.cut = .working false req := by rw [h]; rfl

theorem cut_ended (h : c.handshake = .idle ∨ c.handshake = .answered) : c.handshake.cut = .idle := by
  rcases h with h | h <;> rw [h] <;> rfl

theorem endReset_held (req : Bool) (h : c.resetHeld = true) : c.endReset req =
    { c with resetHeld := false, armed := c.armed || (!req && decide (c.handshake = .idle)) } := by
  rw [Channel.endReset, if_pos h, Channel.isIdle, beq_eq_decide]

/-- With REQ set, or on a channel that is not IDLE, the end of a reset arms nothing (R178). -/
theorem endReset_unarmed {req : Bool} (h : c.resetHeld = true) (hreq : req = true ∨ c.handshake ≠ .idle) :
    c.endReset req = { c with resetHeld := false } := by
  have hnot : (!req && decide (c.handshake = .idle)) = false := by
    rcases hreq with rfl | hne
    · rfl
    · rw [decide_eq_false hne, Bool.and_false]
  rw [endReset_held req h, hnot, Bool.or_false]

theorem endReset_idle (h : c.resetHeld = true) (hidle : c.handshake = .idle) :
    c.endReset false = { c with resetHeld := false, armed := true } := by
  rw [endReset_held false h, decide_eq_true hidle, Bool.not_false, Bool.and_true, Bool.or_true]

/-! ### The rows, where images are exchanged and the link is not lost -/

variable (he : s.exchanging = true) (hl : s.link ≠ .lost)
include he hl

theorem exchanging_linked : (s.exchanging && s.link != .lost) = true := by
  rw [he, Bool.true_and, bne_iff_ne]
  exact hl

theorem exec_answerAcknowledge (h : (sel s.channels ch).resetHeld = false) :
    exec (.answerAcknowledge ch) s = .next (s.onChannel ch Channel.acknowledge) :=
  congrArg _ (if_pos (by rw [exchanging_linked he hl, h]; rfl))

theorem exec_requestAbandonment (h : (sel s.channels ch).resetHeld = false) :
    exec (.requestAbandonment ch) s = .next (s.onChannel ch Channel.abandon) :=
  congrArg _ (if_pos (by rw [exchanging_linked he hl, h]; rfl))

theorem exec_channelReset : exec (.channelReset ch) s = .next (s.onChannel ch Channel.startReset) :=
  congrArg _ (if_pos (exchanging_linked he hl))

theorem exec_channelResetEnd (req : Bool) :
    exec (.channelResetEnd ch req) s = .next (s.onChannel ch fun c => c.endReset req) :=
  congrArg _ (if_pos (exchanging_linked he hl))

end Sys2Proof.Machine
end

section
/-! PROOFS. O49: ANSWER_ACKNOWLEDGE, REQUEST_ABANDONMENT, CHANNEL_RESET and CHANNEL_RESET_END (R176 to R179). -/

namespace Sys2Proof.Machine

/-- Settles O49: each row is a change of its channel's record, which the handshake and the held reset decide. -/
theorem handshakeRows : Obligations.HandshakeRows := by
  refine fun ch s he hl => ⟨fun hopen => ⟨fun hanswered => ?_, fun wanted req hworking => ⟨?_, ?_⟩,
    fun hended => ?_⟩, fun hheld => ⟨?_, ?_, fun hidle => ?_, fun hnot => ?_⟩⟩
  · rw [exec_answerAcknowledge he hl hopen]
    exact congrArg _ (onChannel_congr (acknowledge_answered hanswered))
  · rw [exec_requestAbandonment he hl hopen]
    exact congrArg _ (onChannel_congr (abandon_working hworking))
  · rw [exec_channelReset he hl]
    exact congrArg _ (onChannel_congr ((startReset_open hopen).trans (by rw [cut_working hworking])))
  · rw [exec_channelReset he hl]
    exact congrArg _ (onChannel_congr ((startReset_open hopen).trans (by rw [cut_ended hended])))
  · rw [exec_channelReset he hl, onChannel_same (startReset_held hheld)]
  · rw [exec_channelResetEnd he hl]
    exact congrArg _ (onChannel_congr (endReset_unarmed hheld (.inl rfl)))
  · rw [exec_channelResetEnd he hl]
    exact congrArg _ (onChannel_congr (endReset_idle hheld hidle))
  · rw [exec_channelResetEnd he hl]
    exact congrArg _ (onChannel_congr (endReset_unarmed hheld (.inr hnot)))

end Sys2Proof.Machine
end

section
/-! PROOFS. O51: the input image, byte by byte (R172, R187, Tables 52, 57 and 58). -/

namespace Sys2Proof.Machine

variable {s : State} {ch : ChannelNo}

/-! ### Where the areas stand -/

theorem moduleArea_length (s : State) : (moduleArea s).length = 4 := by
  unfold moduleArea
  split <;> rfl

theorem channelArea_length (s : State) (ch : ChannelNo) : (channelArea s ch).length = 12 := by simp [channelArea]

theorem inputBytes_length (s : State) : (inputBytes s).length = 52 := by
  simp [inputBytes, moduleArea_length, channelArea_length]

/-- The image is the bytes that are formed. -/
theorem formImage_getElem? {i : Nat} (h : i < 52) : (formImage s)[i]? = (inputBytes s)[i]? := by
  have hi : i < (inputBytes s).length := by rwa [inputBytes_length]
  simp [formImage, h, hi]

/-- Before a channel's twelve bytes stand the module area and the twelve bytes of each channel before it. -/
theorem inputBytes_split (s : State) (ch : ChannelNo) : ∃ before after : List Byte,
    inputBytes s = before ++ (channelArea s ch ++ after) ∧ before.length = 4 + 12 * ch.val := by
  simp only [inputBytes, List.append_assoc]
  match ch with
  | 0 => exact ⟨moduleArea s, _, rfl, moduleArea_length s⟩
  | 1 =>
    exact ⟨moduleArea s ++ channelArea s 0, channelArea s 2 ++ channelArea s 3, by simp,
      by simp [moduleArea_length, channelArea_length]⟩
  | 2 =>
    exact ⟨moduleArea s ++ (channelArea s 0 ++ channelArea s 1), channelArea s 3, by simp,
      by simp [moduleArea_length, channelArea_length]⟩
  | 3 =>
    exact ⟨moduleArea s ++ (channelArea s 0 ++ (channelArea s 1 ++ channelArea s 2)), [], by simp,
      by simp [moduleArea_length, channelArea_length]⟩

theorem formImage_module {i : Nat} (h : i < 4) : (formImage s)[i]? = (moduleArea s)[i]? := by
  rw [formImage_getElem? (by omega), inputBytes]
  simp only [List.append_assoc]
  exact List.getElem?_append_left (by rwa [moduleArea_length])

theorem formImage_channel {j : Nat} (h : j < 12) : (formImage s)[4 + 12 * ch.val + j]? = (channelArea s ch)[j]? := by
  obtain ⟨before, after, hsplit, hlength⟩ := inputBytes_split s ch
  rw [formImage_getElem? (by omega), hsplit, ← hlength, List.getElem?_append_right (Nat.le_add_right _ _),
    Nat.add_sub_cancel_left]
  exact List.getElem?_append_left (by rwa [channelArea_length])

/-! ### The fields -/

/-- The status byte with WORKING and ANSWERED read from the handshake (Table 58). -/
theorem statusByte_eq (s : State) (ch : ChannelNo) : statusByte s ch = bitsByte
    [(match (sel s.channels ch).handshake with | .idle => false | .working _ _ => true | .answered => false),
      decide ((sel s.channels ch).handshake = .answered),
      (sel s.channels ch).flags.meets (sel s.channels ch).mask && !(sel s.channels ch).resetHeld,
      (s.role ch).byte.getLsbD 0, (s.role ch).byte.getLsbD 1, s.ready] := by
  simp only [statusByte, State.role]
  cases (sel s.channels ch).handshake <;> rfl

/-- Byte 0 is formed in every phase. -/
theorem moduleArea_levels (s : State) : (moduleArea s)[0]? = some (bitsByte
    [(sel s.outputs 0).readback, (sel s.outputs 1).readback, (sel s.outputs 2).readback,
      (sel s.outputs 3).readback, (sel s.outputs 0).fault, (sel s.outputs 1).fault,
      (sel s.outputs 2).fault, (sel s.outputs 3).fault]) := by
  unfold moduleArea
  split <;> rfl

theorem moduleArea_unready (h : s.ready = false) : (moduleArea s).tail = [0, 0, 0] := by
  unfold moduleArea
  rw [if_neg (Bool.eq_false_iff.1 h)]
  rfl

/-- The enrolled stations that are not CONFORMING, counted over all of them. -/
theorem notConforming_eq (s : State) : s.notConforming = ((List.finRange 32).filter fun st : StationNo =>
    (sel s.stations st).persist.enrolled && decide (derivedState (sel s.stations st) ≠ .conforming)).length := by
  simp only [State.notConforming, pick, bne, beq_eq_decide, decide_not]

/-- Two bits for each section, section 1 lowest (Table 52). -/
theorem sectionBits_eq (s : State) :
    ((List.finRange 4).map fun sec => 4 ^ sec.val * (sel s.sections sec).state.code).sum =
      (sel s.sections 0).state.code + 4 * (sel s.sections 1).state.code + 16 * (sel s.sections 2).state.code +
        64 * (sel s.sections 3).state.code := by
  have hfour : List.finRange 4 = [0, 1, 2, 3] := rfl
  simp [hfour, add_assoc]

theorem mul_toNat (k : Nat) (b : Bool) : k * b.toNat = if b then k else 0 := by cases b <;> simp

theorem moduleArea_ready (h : s.ready = true) : (moduleArea s).tail =
    [byteOf (1 + (if s.degraded then 2 else 0) + (if s.link = .recovered then 4 else 0) + 8 * s.proposals.length),
      byteOf ((sel s.sections 0).state.code + 4 * (sel s.sections 1).state.code +
        16 * (sel s.sections 2).state.code + 64 * (sel s.sections 3).state.code),
      byteOf ((List.finRange 32).filter fun st : StationNo => (sel s.stations st).persist.enrolled &&
        decide (derivedState (sel s.stations st) ≠ .conforming)).length] := by
  simp only [moduleArea, if_pos h, List.tail_cons, notConforming_eq, sectionBits_eq, mul_toNat, beq_iff_eq]

/-- Bytes 1 to 3 of the image are those of the module area after its first. -/
theorem formImage_tail {x y z : Byte} (h : (moduleArea s).tail = [x, y, z]) :
    (formImage s)[1]? = some x ∧ (formImage s)[2]? = some y ∧ (formImage s)[3]? = some z := by
  have htail : ∀ i < 3, (formImage s)[i + 1]? = [x, y, z][i]? := fun i hi => by
    rw [formImage_module (by omega), ← h, List.getElem?_tail]
  exact ⟨htail 0 (by omega), htail 1 (by omega), htail 2 (by omega)⟩

/-- Settles O51: a channel's bytes stand in its area, and the module area is formed by whether READY is set. -/
theorem inputImageLayout : Obligations.InputImageLayout := by
  refine fun s ch => ⟨?_, ?_, fun i => ?_, ?_, fun hr => formImage_tail (moduleArea_unready hr),
    fun hr => formImage_tail (moduleArea_ready hr)⟩
  · exact (formImage_channel (j := 0) (by omega)).trans (congrArg some (statusByte_eq s ch))
  · rw [show 5 + 12 * ch.val = 4 + 12 * ch.val + 1 by omega]
    exact formImage_channel (by omega)
  · rw [show 6 + 12 * ch.val + i.val = 4 + 12 * ch.val + (i.val + 2) by omega, formImage_channel (by omega)]
    simp [channelArea]
  · exact (formImage_module (by omega)).trans (moduleArea_levels s)

end Sys2Proof.Machine
end

section
/-! SUPPORT. What a request leaves alone of the other channels: their records, but for the event flags (R184). -/

namespace Sys2Proof.Machine

/-- From `s` to `t` no channel's record changes but that of `ch`. -/
def OwnChannel (ch : ChannelNo) (s t : State) : Prop := ∀ c, c ≠ ch → sel t.channels c = sel s.channels c

theorem OwnChannel.of_eq {ch : ChannelNo} {s t : State} (h : t.channels = s.channels) : OwnChannel ch s t :=
  fun _ _ => by rw [h]

theorem OwnChannel.setChannel {s t : State} (h : t.channels = s.channels) (ch : ChannelNo) (r : Channel) :
    OwnChannel ch s (t.setChannel ch r) := fun c hc => by
  rw [setChannel_channels, sel_upd_ne _ _ hc, h]

/-! ### The section controller and the judgement -/

theorem endChangeover_channels (sec : SectionNo) (s : State) : (endChangeover sec s).channels = s.channels := by
  rw [endChangeover_eq, recompute_channels]

theorem adoptionNotice_channels (sec : SectionNo) (s : State) : (adoptionNotice sec s).channels = s.channels := by
  unfold adoptionNotice
  split
  · exact endChangeover_channels sec s
  · rfl

theorem beginChangeover_channels (sec : SectionNo) (target : FormatNo) (s : State) :
    (beginChangeover sec target s).channels = s.channels := by
  rw [beginChangeover_eq]
  split
  · rw [endAtOnce, enqueue_channels, setSectionRec_channels]
  · rw [markPending_channels, State.changingSection, setSectionRec_channels]

theorem judgeDigest_channels (st : StationNo) (f : FormatNo) (d : DigestPair) (r : StationRec) (s : State) :
    (judgeDigest st f d r s).1.channels = s.channels := by
  simp only [judgeDigest]
  split
  · rfl
  · split
    · simp only [reportAdoption]
      split
      · dsimp only
        rw [adoptionNotice_channels, enqueue_channels, setStation_channels]
      · rfl
    · rfl

/-! ### The requests that leave every channel -/

variable (ch : ChannelNo) (a : Args) (s : State)

theorem runModuleInfo_channels : (runModuleInfo a s).1.channels = s.channels := by
  simp only [runModuleInfo]; split <;> rfl

theorem runSetRoleCode_channels : (runSetRoleCode a s).1.channels = s.channels := by
  simp only [runSetRoleCode]
  split
  · exact enqueue_channels _ _
  · rfl

theorem runOpenRelease_channels : (runOpenRelease a s).1.channels = s.channels := by
  simp only [runOpenRelease]; split <;> rfl

theorem runSetLifetime_channels : (runSetLifetime a s).1.channels = s.channels := by
  simp only [runSetLifetime]
  split
  · rfl
  · exact enqueue_channels _ _

theorem runApprove_channels : (runApprove ch a s).1.channels = s.channels := by
  simp only [runApprove]; repeat' split
  all_goals simp only [enqueue_channels, markWriting_channels]

theorem runReject_channels : (runReject ch a s).1.channels = s.channels := by
  simp only [runReject]; repeat' split
  all_goals rfl

theorem runWithdraw_channels : (runWithdraw ch a s).1.channels = s.channels := by
  simp only [runWithdraw]; repeat' split
  all_goals rfl

theorem runEnroll_channels : (runEnroll a s).1.channels = s.channels := by
  simp only [runEnroll]; repeat' split
  all_goals simp only [recompute_channels, enqueue_channels, setStation_channels]

theorem runUnenroll_channels : (runUnenroll a s).1.channels = s.channels := by
  simp only [runUnenroll]; repeat' split
  all_goals simp only [recompute_channels, enqueue_channels, setStation_channels]

theorem runReportValue_channels : (runReportValue a s).1.channels = s.channels := by
  simp only [runReportValue]; repeat' split
  all_goals rfl

theorem runReportDigest_channels : (runReportDigest a s).1.channels = s.channels := by
  simp only [runReportDigest]; repeat' split
  all_goals simp only [judgeDigest_channels]

theorem runHold_channels : (runHold ch a s).1.channels = s.channels := by
  simp only [runHold]; repeat' split
  all_goals rfl

theorem runReleaseHold_channels : (runReleaseHold ch a s).1.channels = s.channels := by
  simp only [runReleaseHold]; repeat' split
  all_goals rfl

theorem runChangeover_channels : (runChangeover a s).1.channels = s.channels := by
  simp only [runChangeover]; repeat' split
  all_goals simp only [beginChangeover_channels]

theorem runAbortChangeover_channels : (runAbortChangeover a s).1.channels = s.channels := by
  simp only [runAbortChangeover]; repeat' split
  all_goals simp only [endChangeover_channels]

theorem runSetSection_channels : (runSetSection a s).1.channels = s.channels := by
  simp only [runSetSection]; repeat' split
  all_goals simp only [enqueue_channels, setSectionRec_channels]

theorem runSetOutputMode_channels : (runSetOutputMode ch a s).1.channels = s.channels := by
  simp only [runSetOutputMode]; repeat' split
  all_goals rfl

/-! ### The requests that change their own channel -/

theorem runSetEventMask_own : OwnChannel ch s (runSetEventMask ch a s).1 := by
  simp only [runSetEventMask]
  split
  · exact .of_eq rfl
  · exact .setChannel rfl ch _

theorem runSignOn_own : OwnChannel ch s (runSignOn ch a s).1 := by
  simp only [runSignOn]
  split
  · exact .of_eq rfl
  · split
    · exact .of_eq rfl
    · split
      · exact .of_eq rfl
      · split <;> exact .setChannel rfl ch _

theorem runListEntries_own : OwnChannel ch s (runListEntries ch a s).1 := by
  simp only [runListEntries]
  split
  · split <;> exact .setChannel rfl ch _
  · exact .of_eq rfl

theorem runNextEntry_own : OwnChannel ch s (runNextEntry ch s).1 := by
  simp only [runNextEntry]
  split
  · split
    · exact .of_eq rfl
    · exact .setChannel rfl ch _
  · exact .of_eq rfl
  · exact .of_eq rfl

theorem addChange_own (c : Change) : OwnChannel ch s (addChange ch c s).1 := by
  simp only [addChange]
  split
  · exact .of_eq rfl
  · split
    · exact .of_eq rfl
    · split
      · exact .of_eq rfl
      · exact .setChannel rfl ch _

theorem amend_own (f : Change → Option Change) : OwnChannel ch s (amend ch f s).1 := by
  simp only [amend]
  split
  · exact .of_eq rfl
  · split
    · exact .of_eq rfl
    · split
      · exact .of_eq rfl
      · exact .setChannel rfl ch _

theorem runDraftSet_own : OwnChannel ch s (runDraftSet ch a s).1 := by
  simp only [runDraftSet]
  split
  · exact .of_eq rfl
  · exact addChange_own ch s _

theorem runDraftCreate_own : OwnChannel ch s (runDraftCreate ch a s).1 := by
  simp only [runDraftCreate]
  split
  · exact addChange_own ch s _
  · exact .of_eq rfl

theorem runDraftRetire_own : OwnChannel ch s (runDraftRetire ch a s).1 := by
  simp only [runDraftRetire]
  split
  · exact .of_eq rfl
  · exact addChange_own ch s _

theorem runDraftBounds_own : OwnChannel ch s (runDraftBounds ch a s).1 := by
  simp only [runDraftBounds]
  split
  · exact amend_own ch s _
  · exact .of_eq rfl

theorem runDraftPartner_own : OwnChannel ch s (runDraftPartner ch a s).1 := by
  simp only [runDraftPartner]
  split
  · exact .of_eq rfl
  · exact amend_own ch s _

theorem runDraftSubmit_own : OwnChannel ch s (runDraftSubmit ch s).1 := by
  simp only [runDraftSubmit]
  split
  · exact .of_eq rfl
  · exact .of_eq rfl
  · split
    · exact .of_eq rfl
    · exact .setChannel rfl ch _

theorem runListProposals_own : OwnChannel ch s (runListProposals ch s).1 := by
  simp only [runListProposals]
  split <;> exact .setChannel rfl ch _

theorem runNextProposal_own : OwnChannel ch s (runNextProposal ch s).1 := by
  simp only [runNextProposal]
  split
  · split
    · exact .of_eq rfl
    · exact .setChannel rfl ch _
  · exact .of_eq rfl
  · exact .of_eq rfl

/-- No request changes another channel's record before its event's end. -/
theorem requestOf_own {code : Nat} {r : RequestSpec} (h : requestOf code = some r) :
    OwnChannel ch s (r.run ch a s).1 := by
  unfold requestOf at h
  split at h <;> cases h
  · exact .of_eq (runModuleInfo_channels a s)
  · exact .setChannel rfl ch _
  · exact runSetEventMask_own ch a s
  · exact runSignOn_own ch a s
  · exact .setChannel rfl ch _
  · exact .of_eq (runSetRoleCode_channels a s)
  · exact .of_eq (runOpenRelease_channels a s)
  · exact .of_eq rfl
  · exact .of_eq (runSetLifetime_channels a s)
  · exact .of_eq rfl
  · exact .of_eq rfl
  · exact .of_eq rfl
  · exact .of_eq rfl
  · exact runListEntries_own ch a s
  · exact runNextEntry_own ch s
  · exact .of_eq rfl
  · exact .setChannel rfl ch _
  · exact runDraftSet_own ch a s
  · exact runDraftCreate_own ch a s
  · exact runDraftRetire_own ch a s
  · exact runDraftBounds_own ch a s
  · exact amend_own ch s _
  · exact runDraftPartner_own ch a s
  · exact runDraftSubmit_own ch s
  · exact .setChannel rfl ch _
  · exact .of_eq (runApprove_channels ch a s)
  · exact .of_eq (runReject_channels ch a s)
  · exact .of_eq (runWithdraw_channels ch a s)
  · exact runListProposals_own ch s
  · exact runNextProposal_own ch s
  · exact .of_eq rfl
  · exact .of_eq (runEnroll_channels a s)
  · exact .of_eq (runUnenroll_channels a s)
  · exact .of_eq (runReportValue_channels a s)
  · exact .of_eq (runReportDigest_channels a s)
  · exact .of_eq (runHold_channels ch a s)
  · exact .of_eq (runReleaseHold_channels ch a s)
  · exact .of_eq rfl
  · exact .of_eq rfl
  · exact .of_eq (runChangeover_channels a s)
  · exact .of_eq (runAbortChangeover_channels a s)
  · exact .of_eq (runSetSection_channels a s)
  · exact .of_eq rfl
  · exact .of_eq (runSetOutputMode_channels ch a s)

end Sys2Proof.Machine
end

section
/-! SUPPORT. A channel that is IDLE, armed and not held in reset while another channel's request is taken. -/

namespace Sys2Proof.Machine

/-- IDLE, armed and not held in reset: what an image with REQ and RESET clear leaves as it is. -/
def Channel.Waiting (c : Channel) : Prop := c.handshake = .idle ∧ c.armed = true ∧ c.resetHeld = false

theorem Channel.Waiting.flag {c : Channel} (h : c.Waiting) (e : EventSet) : (c.flag e).Waiting := by
  obtain ⟨hidle, harmed, hopen⟩ := h
  rw [flag_open e hopen]
  exact ⟨hidle, harmed, hopen⟩

variable {ch c : ChannelNo} {code : Byte} {a : Args} {s t : State}

theorem OwnChannel.waiting (h : OwnChannel ch s t) (hc : c ≠ ch) (hs : (sel s.channels c).Waiting) :
    (sel t.channels c).Waiting := by rwa [h c hc]

theorem reply_own (ch : ChannelNo) (r : Reply) (s : State) : OwnChannel ch s (reply ch r s) := by
  cases r with
  | now code result => exact .setChannel rfl ch _
  | later => exact .of_eq rfl

/-- An event's end sets flags and nothing else on a channel. -/
theorem settle_waiting (h : (sel t.channels c).Waiting) : (sel (settle s t).channels c).Waiting := by
  rw [settle_channels, sel_each]
  exact h.flag _

theorem runRequest_waiting {n : Nat} {r : RequestSpec} (hr : requestOf n = some r) (hc : c ≠ ch)
    (hs : (sel s.channels c).Waiting) : (sel (runRequest r ch a s).channels c).Waiting :=
  (reply_own ch _ _).waiting hc (settle_waiting ((requestOf_own ch a s hr).waiting hc hs))

/-- A request leaves every other channel that waits waiting. -/
theorem takeCode_waiting (hc : c ≠ ch) (hs : (sel s.channels c).Waiting) :
    (sel (takeCode ch code a s).channels c).Waiting := by
  have harrive : ∀ req, (sel (arrive ch req s).channels c).Waiting := fun req =>
    OwnChannel.waiting (.setChannel rfl ch _) hc hs
  unfold takeCode
  split
  · next r hr =>
    unfold takeRequest
    split
    · unfold handOn
      split
      · exact (reply_own ch _ _).waiting hc (harrive _)
      · exact runRequest_waiting hr hc (harrive _)
    · exact hs
  · unfold takeUnlisted
    split
    · exact (reply_own ch _ _).waiting hc (harrive _)
    · exact hs

end Sys2Proof.Machine
end

section
/-! SUPPORT. Every request area spells a well-formed command (R174). -/

namespace Sys2Proof.Machine

/-- The requests in the order of Table 59. -/
def listedCommands : List (ChannelNo → Args → Instr) :=
  [.moduleInfo, .readEvents, .setEventMask, .signOn, .signOff, .setRoleCode, .openRelease, .closeRelease,
    .setLifetime, .lookup, .lookupExact, .readLimits, .checkValue, .listEntries, .nextEntry, .readDigest,
    .draftBegin, .draftSet, .draftCreate, .draftRetire, .draftBounds, .draftTolerance, .draftPartner, .draftSubmit,
    .draftDiscard, .approve, .reject, .withdraw, .listProposals, .nextProposal, .readProposal,
    .enroll, .unenroll, .reportValue, .reportDigest, .hold, .releaseHold, .readStation, .readDivergence, .changeover,
    .abortChangeover, .setSection, .readSection, .setOutputMode]

/-- The codes and the commands of Table 59 stand in one order. -/
theorem listedCommands_spell : List.Forall₂ (fun n f => ∀ (ch : ChannelNo) (a : Args),
    (f ch a).wf = true ∧ requestParts (f ch a) = some (ch, BitVec.ofNat 8 n, a)) knownCodes listedCommands := by
  simp [knownCodes, listedCommands, Instr.wf, requestParts]

/-- The command of a request area: its code's own, or the unknown request. -/
theorem exists_command (ch : ChannelNo) (code : Byte) (a : Args) :
    ∃ c : Instr, c.wf = true ∧ requestParts c = some (ch, code, a) := by
  cases hknown : knownCodes.contains code.toNat with
  | false => exact ⟨.unknownRequest ch code a, by simp only [Instr.wf, hknown]; rfl, rfl⟩
  | true =>
    obtain ⟨i, hi, hcode⟩ := List.mem_iff_getElem.1 (List.contains_iff_mem.1 hknown)
    obtain ⟨hwf, hparts⟩ := listedCommands_spell.get hi (listedCommands_spell.length_eq ▸ hi) ch a
    refine ⟨_, hwf, hparts.trans ?_⟩
    simp [hcode]

end Sys2Proof.Machine
end

section
/-! PROOFS. O50: the exchange of the images (R173, R176 to R178, R180, R181). -/

namespace Sys2Proof.Machine

variable {image : OutputImage} {ch : ChannelNo} {s v w : State}

/-! ### What an exchange begins with -/

theorem exchanged_eq (l : LinkState) : l.exchanged = if l = .lost then .recovered else l := by cases l <;> rfl

theorem beginExchange_eq (s : State) : beginExchange s =
    { s with
      link := if s.link = .lost then .recovered else s.link
      linkTimer := some 200
      inputImage := formImage { s with link := if s.link = .lost then .recovered else s.link,
                                       linkTimer := some 200 } } := by
  rw [← exchanged_eq]
  rfl

theorem exec_imageExchange (h : s.exchanging = true) : exec (.imageExchange image) s =
    .next ((List.finRange 4).foldl (takeControl image) (beginExchange s)) := congrArg _ (if_pos h)

/-! ### One channel -/

/-- A request area with REQ set and RESET clear is its code, on a channel whose reset is not held. -/
theorem takeControl_request (hreq : (controlByte image ch).getLsbD 0 = true)
    (hreset : (controlByte image ch).getLsbD 1 = false) (hopen : (sel v.channels ch).resetHeld = false) :
    takeControl image v ch = takeCode ch (requestCode image ch) (requestArgs image ch) v := by
  simp only [takeControl, hreq, hreset, hopen, if_true, Bool.false_eq_true, if_false]

theorem takeControl_reset (hreset : (controlByte image ch).getLsbD 1 = true) :
    takeControl image v ch = v.onChannel ch Channel.startReset := by
  simp only [takeControl, hreset, if_true]

theorem takeControl_resetEnd (hreset : (controlByte image ch).getLsbD 1 = false)
    (hheld : (sel v.channels ch).resetHeld = true) :
    takeControl image v ch = v.onChannel ch fun c => c.endReset ((controlByte image ch).getLsbD 0) := by
  simp only [takeControl, hreset, hheld, if_true, Bool.false_eq_true, if_false]

theorem takeControl_reqClear (hreq : (controlByte image ch).getLsbD 0 = false)
    (hreset : (controlByte image ch).getLsbD 1 = false) (hopen : (sel v.channels ch).resetHeld = false) :
    takeControl image v ch = v.onChannel ch Channel.reqClear := by
  simp only [takeControl, hreq, hreset, hopen, Bool.false_eq_true, if_false]

/-- The channel's area shows REQ and RESET clear. -/
def ControlClear (image : OutputImage) (ch : ChannelNo) : Prop :=
  (controlByte image ch).getLsbD 0 = false ∧ (controlByte image ch).getLsbD 1 = false

/-- What REQ and RESET clear do to a channel, its reset held or not. -/
def Channel.clearControl (c : Channel) : Channel := if c.resetHeld then c.endReset false else c.reqClear

theorem takeControl_clear (h : ControlClear image ch) :
    takeControl image v ch = v.onChannel ch Channel.clearControl := by
  obtain ⟨hreq, hreset⟩ := h
  cases hheld : (sel v.channels ch).resetHeld with
  | false =>
    rw [takeControl_reqClear hreq hreset hheld]
    exact onChannel_congr (if_neg (Bool.eq_false_iff.1 hheld)).symm
  | true =>
    rw [takeControl_resetEnd hreset hheld, hreq]
    exact onChannel_congr (if_pos hheld).symm

theorem reqClear_eq (c : Channel) : c.reqClear =
    match c.handshake with
    | .idle => { c with armed := true }
    | .working _ req => { c with handshake := .working false req }
    | .answered => { c with handshake := .idle, armed := true } := by
  obtain ⟨handshake, _⟩ := c
  cases handshake <;> rfl

theorem clearControl_eq (c : Channel) : c.clearControl =
    if c.resetHeld then { c with resetHeld := false, armed := c.armed || decide (c.handshake = .idle) }
    else
      match c.handshake with
      | .idle => { c with armed := true }
      | .working _ req => { c with handshake := .working false req }
      | .answered => { c with handshake := .idle, armed := true } := by
  unfold Channel.clearControl
  split
  · next h => rw [endReset_held false h]; rfl
  · exact reqClear_eq c

theorem startReset_eq (c : Channel) (h : c.resetHeld = false) : c.startReset =
    { c with
      handshake := match c.handshake with
        | .idle => .idle | .working _ req => .working false req | .answered => .idle
      armed := false, resetHeld := true, answer := ⟨0, Vector.replicate 10 0⟩
      flags := ⟨false, false, false, false, false⟩, mask := ⟨false, false, false, false, false⟩
      role := .noRole, draft := none, cursor := .noCursor } := by
  rw [startReset_open h]
  cases c.handshake <;> rfl

theorem Channel.Waiting.clearControl {c : Channel} (h : c.Waiting) : c.clearControl = c := by
  obtain ⟨handshake, armed, resetHeld, _⟩ := c
  obtain ⟨rfl, rfl, rfl⟩ := h
  rfl

/-- `ControlTaken` names the state that the control byte leads to. -/
theorem ControlTaken.eq (h : ControlTaken image ch v w) : takeControl image v ch = w := by
  obtain ⟨hset, hclear⟩ := h
  cases hreset : (controlByte image ch).getLsbD 1 with
  | true =>
    obtain ⟨hheld, honset⟩ := hset hreset
    rw [takeControl_reset hreset]
    cases hr : (sel v.channels ch).resetHeld with
    | true => rw [hheld hr, onChannel_same (startReset_held hr)]
    | false => rw [honset hr]; exact onChannel_congr (startReset_eq _ hr)
  | false =>
    obtain ⟨hheld, hopen⟩ := hclear hreset
    cases hr : (sel v.channels ch).resetHeld with
    | true =>
      rw [hheld hr, takeControl_resetEnd hreset hr]
      exact onChannel_congr (endReset_held _ hr)
    | false =>
      obtain ⟨hrequest, hnone⟩ := hopen hr
      cases hreq : (controlByte image ch).getLsbD 0 with
      | true =>
        obtain ⟨c, hwf, hparts⟩ := exists_command ch (requestCode image ch) (requestArgs image ch)
        have hexec := hrequest hreq c hwf hparts
        rw [exec_request hparts] at hexec
        rw [takeControl_request hreq hreset hr]
        exact Host.Outcome.next.inj hexec
      | false =>
        rw [hnone hreq, takeControl_reqClear hreq hreset hr]
        exact onChannel_congr (reqClear_eq _)

/-! ### The four channels -/

/-- Channels changed one after another are changed together. -/
theorem foldl_onChannel (f : Channel → Channel) (l : List ChannelNo) (hl : l.Nodup) (s : State) :
    l.foldl (fun t ch => t.onChannel ch f) s =
      { s with channels := each s.channels fun ch c => if ch ∈ l then f c else c } := by
  induction l generalizing s with
  | nil =>
    have hsame : each s.channels (fun ch c => if ch ∈ [] then f c else c) = s.channels :=
      each_id _ _ fun _ => if_neg List.not_mem_nil
    rw [hsame]
    rfl
  | cons ch l ih =>
    obtain ⟨hch, hl⟩ := List.nodup_cons.1 hl
    rw [List.foldl_cons, ih hl]
    refine congrArg (fun b => { s with channels := b }) (bank_ext fun x => ?_)
    simp only [onChannel_channels, sel_each, sel_upd, List.mem_cons]
    by_cases hx : x = ch
    · subst hx; simp [hch]
    · simp [hx]

/-- Channels that wait, with REQ and RESET clear, are left as they are. -/
theorem foldl_takeControl_waiting {l : List ChannelNo}
    (h : ∀ x ∈ l, ControlClear image x ∧ (sel v.channels x).Waiting) : l.foldl (takeControl image) v = v := by
  induction l with
  | nil => rfl
  | cons ch l ih =>
    obtain ⟨hclear, hwaiting⟩ := h ch List.mem_cons_self
    rw [List.foldl_cons, takeControl_clear hclear, onChannel_same hwaiting.clearControl]
    exact ih fun x hx => h x (List.mem_cons_of_mem _ hx)

/-- One request in an image, the other channels waiting and clear: the exchange takes that request alone. -/
theorem takeControls_request (hreq : (controlByte image ch).getLsbD 0 = true)
    (hreset : (controlByte image ch).getLsbD 1 = false) (hopen : (sel v.channels ch).resetHeld = false)
    (hothers : ∀ x, x ≠ ch → ControlClear image x ∧ (sel v.channels x).Waiting) :
    (List.finRange 4).foldl (takeControl image) v =
      takeCode ch (requestCode image ch) (requestArgs image ch) v := by
  obtain ⟨before, after, hsplit⟩ := List.append_of_mem (List.mem_finRange ch)
  have hnodup : (before ++ ch :: after).Nodup := hsplit ▸ List.nodup_finRange 4
  obtain ⟨hbefore, hafter⟩ : ch ∉ before ∧ ch ∉ after := by simpa using (List.nodup_middle.1 hnodup).notMem
  rw [hsplit, List.foldl_append, List.foldl_cons,
    foldl_takeControl_waiting fun x hx => hothers x fun h => hbefore (h ▸ hx), takeControl_request hreq hreset hopen]
  refine foldl_takeControl_waiting fun x hx => ?_
  have hx : x ≠ ch := fun h => hafter (h ▸ hx)
  exact (hothers x hx).imp_right (takeCode_waiting hx)

/-- Settles O50: an image of clear control bytes changes the channels together; one request among waiting channels is
taken alone; and any image is taken as `ControlTaken` has it, channel by channel. -/
theorem exchangeOfImages : Obligations.ExchangeOfImages := by
  rintro image s _ he rfl
  rw [← beginExchange_eq, exec_imageExchange he]
  refine ⟨fun hclear => ?_, fun ch c _ hreq hreset hothers hopen hparts => ?_, fun v1 v2 v3 v4 h1 h2 h3 h4 => ?_⟩
  · have hcontrol : takeControl image = fun t ch => t.onChannel ch Channel.clearControl :=
      funext fun t => funext fun ch => takeControl_clear (hclear ch)
    rw [hcontrol, foldl_onChannel _ _ (List.nodup_finRange 4)]
    refine congrArg (fun b => Host.Outcome.next { beginExchange s with channels := b }) (bank_ext fun ch => ?_)
    simp only [sel_each, List.mem_finRange, if_true]
    exact clearControl_eq _
  · rw [exec_request hparts]
    refine congrArg _ (takeControls_request hreq hreset hopen fun x hx => ?_)
    obtain ⟨hxreq, hxreset, hwaiting⟩ := hothers x hx
    exact ⟨⟨hxreq, hxreset⟩, hwaiting⟩
  · have hfour : List.finRange 4 = [0, 1, 2, 3] := rfl
    rw [hfour, List.foldl_cons, h1.eq, List.foldl_cons, h2.eq, List.foldl_cons, h3.eq, List.foldl_cons, h4.eq]
    rfl

end Sys2Proof.Machine
end

section
/-! PROOFS. O1: a step is the command at the front of the queue, run with the rest of the queue. -/

namespace Sys2Proof.Machine

/-- Settles O1: of the two branches of `step`, the one for a queue that holds a command; `step_idle` is the other. -/
theorem stepTakesFront : Obligations.StepTakesFront := by
  intro c rest s hpending
  unfold step
  rw [hpending]

end Sys2Proof.Machine
end
